-- ==== Sys2Proof/Word.lean ====
section
/-! DEFINITION. The widths of 00_scope.md R7 and R8: registers, commands, bytes, indices, code points. -/

namespace Sys2Proof

/-- A 32-bit register or operand word (R7). -/
abbrev Word := BitVec 32

/-- A CRC input byte (R51). -/
abbrev Byte := BitVec 8

/-- An alphabet index, `IW = 7` bits (R7). -/
abbrev Index := BitVec 7

/-- A character's code point, `SYMW = 21` bits (R7). -/
abbrev Sym := BitVec 21

/-- A 40-bit command word (R7, R55). -/
abbrev Cmd := BitVec 40

/-- A read-port address (R31). -/
abbrev PortAddr := BitVec 3

/-- `N = 106`, the alphabet size and the cipher modulus (R7). -/
abbrev symbolCount : Nat := 106

end Sys2Proof
end

