-- ==== Sys2Proof/Config.lean ====
section
/-! DEFINITION. What is fixed when a block is built (00_scope.md R5, R6) and the free values of
93_implementation_defined.md I1. -/

namespace Sys2Proof

/-- The parameters of one block: `KMAX` (R5) and `ALPHABET` (R6), fixed while the block runs. -/
structure Config where
  kmax : Nat
  alphabet : Vector Sym 106
  deriving DecidableEq, Repr

/-- R5: the default of `KMAX`. -/
def Config.defaultKmax : Nat := 256

/-- R6: a Unicode scalar value is at most 0x10FFFF and not in 0xD800..0xDFFF. -/
def isScalarValue (c : Sym) : Bool :=
  decide (c.toNat ≤ 0x10FFFF) && !(decide (0xD800 ≤ c.toNat) && decide (c.toNat ≤ 0xDFFF))

/-- `n` code points in a row, from `first` on. -/
def symbolRun (first n : Nat) : List Sym :=
  (List.range n).map fun i => BitVec.ofNat 21 (first + i)

/-- R6: the 26 letters a-z, the 26 letters A-Z and the 10 digits 0-9. -/
def lettersAndDigits : List Sym := symbolRun 0x61 26 ++ symbolRun 0x41 26 ++ symbolRun 0x30 10

/-- R6: the members the document fixes: a-z, A-Z, 0-9, the space and `!`. -/
def requiredSymbols : List Sym := lettersAndDigits ++ [0x20#21, 0x21#21]

/-- `c` lies in one of these ranges, both ends included. -/
def inRanges (ranges : List (Nat × Nat)) (c : Sym) : Bool :=
  ranges.any fun r => decide (r.1 ≤ c.toNat) && decide (c.toNat ≤ r.2)

/-- R6: "punctuation", the space among it, which R6 counts with the other symbols. PRESUMED (log 7): R6 names the class
and no code points, so it is read widely, as Unicode's marks and signs: ASCII, Latin-1 (without the letters 0xAA, 0xB5,
0xBA and the soft hyphen 0xAD), general punctuation, currency signs, supplemental punctuation. -/
def isPunctuation (c : Sym) : Bool :=
  inRanges
    [(0x20, 0x2F), (0x3A, 0x40), (0x5B, 0x60), (0x7B, 0x7E), (0xA1, 0xA9), (0xAB, 0xAC), (0xAE, 0xB4), (0xB6, 0xB9),
     (0xBB, 0xBF), (0xD7, 0xD7), (0xF7, 0xF7), (0x2010, 0x2027), (0x2030, 0x205E), (0x20A0, 0x20C0),
     (0x2E00, 0x2E5D)] c

/-- R6: "accented letters". PRESUMED (log 7): read widely, as the Latin letters beyond the basic 52 in Unicode's blocks
Latin-1, Latin Extended-A and -B, and Latin Extended Additional. -/
def isAccentedLetter (c : Sym) : Bool :=
  inRanges [(0xC0, 0xD6), (0xD8, 0xF6), (0xF8, 0x24F), (0x1E00, 0x1EFF)] c

/-- R6: a member is a letter or digit, or one of the other symbols: punctuation or an accented letter. -/
def isAlphabetSymbol (c : Sym) : Bool := lettersAndDigits.contains c || isPunctuation c || isAccentedLetter c

/-- R6's constraints on `ALPHABET`: distinct symbols, scalar values, the known members, every other symbol punctuation
or an accented letter, some accented letter among them. That the other symbols are 44 follows
(`legal_alphabet_has_62_and_44`). -/
def alphabetLegal (a : Vector Sym 106) : Bool :=
  decide a.toList.Nodup && a.toList.all isScalarValue && (requiredSymbols.all fun c => a.toList.contains c)
    && a.toList.all isAlphabetSymbol && a.toList.any isAccentedLetter

/-- R5 and R6 together: what a block may be built with. -/
def Config.legal (c : Config) : Bool :=
  decide (1 ≤ c.kmax) && decide (c.kmax ≤ 65535) && alphabetLegal c.alphabet

/-- One alphabet that meets R6 (DESIGN CHOICE, log 2): a witness that R6's constraints can be met.
Nothing says that the document's alphabet is this one. -/
def exampleAlphabet : Vector Sym 106 :=
  Vector.ofFn fun i =>
    (lettersAndDigits ++ symbolRun 0x20 16 ++ symbolRun 0x3A 7 ++ symbolRun 0x5B 6 ++ symbolRun 0x7B 4
      ++ symbolRun 0xE0 6 ++ symbolRun 0xE7 5).getD i.val 0#21

/-- FREE VALUE (log 2): the OPEN parameter `ALPHABET`, nothing known of it. -/
opaque Config.openAlphabet : Vector Sym 106

/-- `ALPHABET` of the block in the reset state: the OPEN parameter where it meets R6 (log 2). So a proof
about it knows R6's constraints and nothing else, whatever alphabet the block has. -/
def Config.builtAlphabet : Vector Sym 106 :=
  if alphabetLegal Config.openAlphabet = true then Config.openAlphabet else exampleAlphabet

/-- The block of the reset state: the default `KMAX` (R5) and the OPEN alphabet (R6). -/
def Config.standard : Config where
  kmax := Config.defaultKmax
  alphabet := Config.builtAlphabet

/-- FREE VALUE (log 5): KEY entry `i` while nothing has written it since the entries became
unspecified for the `epoch`-th time (R24, R86, I1). -/
opaque Config.unspecifiedKey : Nat → Nat → Index

/-- FREE VALUE (log 6): the alphabet read at an index of 106 or more, which happens only in states
outside the invariant (R27, R90 speak of indices 0..105). -/
opaque Config.unspecifiedSymbol : Index → Sym

end Sys2Proof
end

