-- ==== Sys2Proof/Syntax.lean ====
section
/-! DEFINITION. The commands of 30_encoding.md R57, what decoding a word answers (R60), and the parts of an
assembler line (R63). -/

namespace Sys2Proof

/-- One constructor per row of spec/opcode_table.json (R57). `data` is the whole operand word `cmd[31:0]`,
reserved bits included: they are checked when the command is executed (R58, R60). -/
inductive Instr where
  | nop (data : Word)
  | crcInit (data : Word)
  | crcB (data : Word)
  | crcW (data : Word)
  | crcChk (data : Word)
  | keyClr (data : Word)
  | keyPush (data : Word)
  | keyPushs (data : Word)
  | keyRst (data : Word)
  | enc (data : Word)
  | dec (data : Word)
  | encs (data : Word)
  | decs (data : Word)
  | symIdx (data : Word)
  | idxSym (data : Word)
  | statClr (data : Word)
  deriving DecidableEq, Repr

/-- R60: `Cmd ⊕ Illegal`, what a 40-bit word decodes to. -/
inductive Decoded where
  | command (i : Instr)
  | illegal (op : BitVec 8)
  deriving DecidableEq, Repr

/-- R63: the operand of an assembler line. -/
inductive AsmOperand where
  | absent
  | number (n : Nat)
  | charlit (c : Char)
  deriving DecidableEq, Repr

/-- R61, R63: the operand field a mnemonic takes: none, or a field of `width` bits at bit 0, where a
character literal may stand if the field is a symbol. -/
inductive OperandField where
  | absent
  | field (width : Nat) (symbol : Bool)
  deriving DecidableEq, Repr

end Sys2Proof
end

