-- ==== Sys2Proof/Decode.lean ====
section
/-! DEFINITION. Decoding and encoding of 30_encoding.md: the format R55, the opcode map R57, the reserved
masks R58, decode R60. -/

namespace Sys2Proof

/-- R55: `op = cmd[39:32]`. -/
def opOf (cmd : Cmd) : BitVec 8 := cmd.extractLsb' 32 8

/-- R55: `data = cmd[31:0]`. -/
def dataOf (cmd : Cmd) : Word := cmd.extractLsb' 0 32

/-- R57: the opcode of each command. -/
def Instr.opcode : Instr → BitVec 8
  | .nop _ => 0x00#8
  | .crcInit _ => 0x01#8
  | .crcB _ => 0x02#8
  | .crcW _ => 0x03#8
  | .crcChk _ => 0x04#8
  | .keyClr _ => 0x10#8
  | .keyPush _ => 0x11#8
  | .keyPushs _ => 0x12#8
  | .keyRst _ => 0x13#8
  | .enc _ => 0x14#8
  | .dec _ => 0x15#8
  | .encs _ => 0x16#8
  | .decs _ => 0x17#8
  | .symIdx _ => 0x18#8
  | .idxSym _ => 0x19#8
  | .statClr _ => 0xF0#8

/-- The operand word of a command. -/
def Instr.data : Instr → Word
  | .nop d => d
  | .crcInit d => d
  | .crcB d => d
  | .crcW d => d
  | .crcChk d => d
  | .keyClr d => d
  | .keyPush d => d
  | .keyPushs d => d
  | .keyRst d => d
  | .enc d => d
  | .dec d => d
  | .encs d => d
  | .decs d => d
  | .symIdx d => d
  | .idxSym d => d
  | .statClr d => d

/-- R58: `reserved_mask(op)`, the operand bits that must be zero. -/
def Instr.reservedMask : Instr → Word
  | .nop _ => 0xFFFFFFFF#32
  | .crcInit _ => 0xFFFFFFFF#32
  | .crcB _ => 0xFFFFFF00#32
  | .crcW _ => 0x00000000#32
  | .crcChk _ => 0x00000000#32
  | .keyClr _ => 0xFFFFFFFF#32
  | .keyPush _ => 0xFFFFFF80#32
  | .keyPushs _ => 0xFFE00000#32
  | .keyRst _ => 0xFFFFFFFF#32
  | .enc _ => 0xFFFFFF80#32
  | .dec _ => 0xFFFFFF80#32
  | .encs _ => 0xFFE00000#32
  | .decs _ => 0xFFE00000#32
  | .symIdx _ => 0xFFE00000#32
  | .idxSym _ => 0xFFFFFF80#32
  | .statClr _ => 0xFFFFFFFF#32

/-- R57: the command an opcode names, given the operand word; none for the 240 illegal opcodes (R59). -/
def commandOf (op : BitVec 8) (data : Word) : Option Instr :=
  if op = 0x00#8 then some (.nop data)
  else if op = 0x01#8 then some (.crcInit data)
  else if op = 0x02#8 then some (.crcB data)
  else if op = 0x03#8 then some (.crcW data)
  else if op = 0x04#8 then some (.crcChk data)
  else if op = 0x10#8 then some (.keyClr data)
  else if op = 0x11#8 then some (.keyPush data)
  else if op = 0x12#8 then some (.keyPushs data)
  else if op = 0x13#8 then some (.keyRst data)
  else if op = 0x14#8 then some (.enc data)
  else if op = 0x15#8 then some (.dec data)
  else if op = 0x16#8 then some (.encs data)
  else if op = 0x17#8 then some (.decs data)
  else if op = 0x18#8 then some (.symIdx data)
  else if op = 0x19#8 then some (.idxSym data)
  else if op = 0xF0#8 then some (.statClr data)
  else none

/-- R60: decode, total on every 40-bit word. -/
def decode (cmd : Cmd) : Decoded :=
  match commandOf (opOf cmd) (dataOf cmd) with
  | some i => .command i
  | none => .illegal (opOf cmd)

/-- R55: the word of a command, `op` in bits 39:32 and `data` in bits 31:0. -/
def encode (i : Instr) : Cmd := i.opcode ++ i.data

/-- The 40-bit word the opcode table numbers: `nbits` bits of `w`, zeros above them (log 16). -/
def tableWord (nbits w : Nat) : Cmd := BitVec.ofNat 40 (w % 2 ^ nbits)

/-- What the decoder reads from a word of the opcode table. Every command is exactly 40 bits (R56), so a
longer one is refused. -/
def decodeTableWord (nbits w : Nat) : Option Instr :=
  if nbits ≤ 40 then
    match decode (tableWord nbits w) with
    | .command i => some i
    | .illegal _ => none
  else none

end Sys2Proof
end

