-- ==== Sys2Proof/WellFormed.lean ====
section
/-! DEFINITION. A well-formed command: the legal spellings of 30_encoding.md R62. -/

namespace Sys2Proof

/-- R58, R62: a command is legal if its reserved bits are zero. The block still defines what the others do
(ReservedBits, R118), so the machine does not assume this. -/
def Instr.wellFormed (i : Instr) : Bool := i.data &&& i.reservedMask == 0#32

end Sys2Proof
end

