-- ==== Sys2Proof/Machine/State.lean ====
section
/-! DEFINITION. The block's state (10_state.md R20), the host's side of its ports (20_memory.md R41), the error
causes (60_exceptions.md R117), and the state after reset (70_reset_and_hazards.md R140). -/

namespace Sys2Proof.Machine

/-- R117: the error causes of the block, in the order of their codes. -/
inductive ErrorKind where
  | emptyPassphrase
  | unsupportedCharacter
  | checksumMismatch
  | badIndex
  | keyFull
  | reservedBits
  | illegalOpcode
  deriving DecidableEq, Repr

/-- What the outside does to the block: issue one command, read one register (R41), reset it (R140). -/
inductive Transaction where
  | issue (cmd : Cmd)
  | read (a : PortAddr)
  | reset
  deriving DecidableEq, Repr

/-- No constructor: no command of the block stops it. Every error is reported in STATUS and the block goes on
(R119, R124, R112 "it does not halt or lock up"). Safe: nothing is cut off (log 15). -/
inductive Fault where
  deriving DecidableEq, Repr

/-- Why an instruction would have no meaning. -/
inductive Refusal where
  /-- Raised by no arm of this model: every row of the opcode table has its meaning. Safe: the run stops. -/
  | notModelled (mnemonic : String)
  deriving DecidableEq, Repr

/-- The block (R20), its parameters, and the host's side of its ports. -/
structure State where
  /-- `KMAX` and `ALPHABET` (R5, R6): configuration, which nothing changes (R20, R28; log 1). -/
  cfg : Config
  /-- R21: the raw CRC register, before the final XOR. -/
  crcState : Word
  /-- R24: the key buffer's storage, KMAX entries. Read it through `keyEntry` (log 5). -/
  key : List Index
  /-- R25: the passphrase length, 0..KMAX. -/
  klen : Nat
  /-- R26: the key position, 0..max(klen,1)-1. -/
  kpos : Nat
  /-- R29: the result register. -/
  res : Word
  /-- R30: the payload of the last error. -/
  einfo : Word
  /-- R22: STATUS[3:0], ERR. -/
  err : BitVec 4
  /-- R22: STATUS[4], MATCH. -/
  matchFlag : Bool
  /-- R22: STATUS[5], STICKY. -/
  sticky : Bool
  /-- The model's own: how often the KEY entries became unspecified (I1; log 5). -/
  keyEpoch : Nat
  /-- The model's own: the host's transactions still to come, first one first (R23, R43; log 3). -/
  host : List Transaction
  /-- The model's own: the values returned by the reads so far, oldest first (R157; log 3). -/
  observed : List Word
  deriving DecidableEq, Repr

/-- R140: a block with parameters `c` right after reset, with no transaction pending. The KEY entries, which
R24 leaves unspecified, are zeros in storage (DESIGN CHOICE, log 5). -/
def State.resetWith (c : Config) : State where
  cfg := c
  crcState := 0xFFFFFFFF#32
  key := List.replicate c.kmax 0#7
  klen := 0
  kpos := 0
  res := 0#32
  einfo := 0#32
  err := 0#4
  matchFlag := false
  sticky := false
  keyEpoch := 0
  host := []
  observed := []

/-- R140 with the default KMAX (R5) and the OPEN alphabet (R6; log 2). -/
def State.reset : State := State.resetWith Config.standard

end Sys2Proof.Machine
end

