-- ==== Sys2Proof/Machine/Flags.lean ====
section
/-! DEFINITION. The error codes of 60_exceptions.md R117 and the STATUS register of 10_state.md R22. -/

namespace Sys2Proof.Machine

/-- R117: the value ERR takes for each cause; 0 is success. -/
def ErrorKind.code : ErrorKind → BitVec 4
  | .emptyPassphrase => 1#4
  | .unsupportedCharacter => 2#4
  | .checksumMismatch => 3#4
  | .badIndex => 4#4
  | .keyFull => 5#4
  | .reservedBits => 6#4
  | .illegalOpcode => 7#4

/-- R22, R31: `STATUS = {26'b0, STICKY, MATCH, ERR}`. -/
def statusWord (s : State) : Word :=
  0#26 ++ BitVec.ofBool s.sticky ++ BitVec.ofBool s.matchFlag ++ s.err

end Sys2Proof.Machine
end

