-- ==== Sys2Proof/Machine/Operands.lean ====
section
/-! DEFINITION. Operand fields (30_encoding.md R61) and their conversion (41_cipher.md R85): indices and symbols. -/

namespace Sys2Proof.Machine

/-- R61: `byte = data[7:0]`. -/
def byteField (data : Word) : Byte := data.extractLsb' 0 8

/-- R73: the four bytes of `word = data[31:0]`, most significant first, the order they are fed in. -/
def wordBytes (data : Word) : List Byte :=
  [data.extractLsb' 24 8, data.extractLsb' 16 8, data.extractLsb' 8 8, data.extractLsb' 0 8]

/-- R61: `idx = data[6:0]`. -/
def idxField (data : Word) : Index := data.extractLsb' 0 7

/-- R61: `sym = data[20:0]`. -/
def symField (data : Word) : Sym := data.extractLsb' 0 21

/-- R6: `IDX(c)`, the index of a symbol of the alphabet, none for any other code point. -/
def indexOf (c : Config) (sym : Sym) : Option Index :=
  (c.alphabet.toList.findIdx? (· == sym)).map (BitVec.ofNat 7)

/-- R6: `ALPHABET[i]`. An index of 106 or more has no symbol: a free value (log 6). -/
def symbolAt (c : Config) (i : Index) : Sym :=
  if h : i.toNat < 106 then c.alphabet[i.toNat] else Config.unspecifiedSymbol i

/-- R85: `CheckIdx`, an index operand is legal below 106. -/
def checkIdx (data : Word) : Except ErrorKind Index :=
  if (idxField data).toNat < symbolCount then .ok (idxField data) else .error .badIndex

/-- R85: `CheckSym`, a symbol operand is legal if the alphabet holds it. -/
def checkSym (c : Config) (data : Word) : Except ErrorKind Index :=
  match indexOf c (symField data) with
  | some i => .ok i
  | none => .error .unsupportedCharacter

/-- R29: an index result, `zext32(index)`. -/
def indexResult (_ : Config) (i : Index) : Word := i.setWidth 32

/-- R29: a symbol result, `zext32(ALPHABET[index])`. -/
def symbolResult (c : Config) (i : Index) : Word := (symbolAt c i).setWidth 32

end Sys2Proof.Machine
end

