-- ==== Sys2Proof/Machine/Ops.lean ====
section
/-! DEFINITION. The shared operations: raising an error and completing (60_exceptions.md R119, R121), the checks in
the order of R122, the key buffer (10_state.md R24-R26), the read port (R31, R32), reset
(70_reset_and_hazards.md R140). -/

namespace Sys2Proof.Machine

/-- What a command, a step or a meaning answers. -/
abbrev Result := Host.Outcome State Fault Refusal

/-- R119: `raise E(info)`. There is no trap entry: nothing else changes (R124). -/
def raise (e : ErrorKind) (info : Word) (s : State) : State :=
  { s with err := e.code, sticky := true, einfo := info }

/-- R121: `done`. -/
def done (s : State) : State := { s with err := 0#4 }

/-- R118: the reserved bits are checked before any other check of the command. -/
def guarded (i : Instr) (body : State → State) (s : State) : State :=
  if i.data &&& i.reservedMask = 0#32 then body s else raise .reservedBits i.data s

/-- R122: ENC, DEC, ENCS and DECS need a passphrase, which is checked before the operand. -/
def requireKey (body : State → State) (s : State) : State :=
  if s.klen = 0 then raise .emptyPassphrase 0#32 s else body s

/-- R85: operand conversion, which raises with EINFO = data or goes on with the index. -/
def withOperand (operand : Except ErrorKind Index) (data : Word) (body : Index → State → State)
    (s : State) : State :=
  match operand with
  | .ok i => body i s
  | .error e => raise e data s

/-- R24: key entry `i` as a command reads it. An entry at or above klen is unspecified, so it reads as a free
value (I1; log 5). -/
def keyEntry (s : State) (i : Nat) : Index :=
  if i < s.klen then s.key.getD i (Config.unspecifiedKey s.keyEpoch i)
  else Config.unspecifiedKey s.keyEpoch i

/-- R87, R88: `if klen = KMAX then raise KeyFull(data)`, else write entry klen and count it. -/
def appendKey (data : Word) (i : Index) (s : State) : State :=
  if s.klen = s.cfg.kmax then raise .keyFull data s
  else done { s with key := s.key.set s.klen i, klen := s.klen + 1 }

/-- R86: the passphrase is forgotten. The entries are not erased and their values are unspecified (D31; log 5). -/
def clearKey (s : State) : State := { s with klen := 0, kpos := 0, keyEpoch := s.keyEpoch + 1 }

/-- R26: `kpos <- (kpos + 1) mod klen`. -/
def advanceKey (s : State) : State := { s with kpos := (s.kpos + 1) % s.klen }

/-- R29: `RES <- v`. -/
def setResult (v : Word) (s : State) : State := { s with res := v }

/-- R91-R94 after the checks: mix message index `m` with the key entry at kpos, write the result, advance kpos. -/
def cipherStep (mix : Index → Index → Index) (result : Config → Index → Word) (m : Index)
    (s : State) : State :=
  done (advanceKey (setResult (result s.cfg (mix m (keyEntry s s.kpos))) s))

/-- R72: the finished CRC. -/
def finishedCrc (s : State) : Word := s.crcState ^^^ 0xFFFFFFFF#32

/-- R32: PARAM, `KMAX` in bits 15:0 and 106 in bits 22:16. -/
def paramWord (c : Config) : Word := 0#9 ++ 106#7 ++ BitVec.ofNat 16 c.kmax

/-- R25, R26: a 16-bit register on the 32-bit read port. -/
def zext16 (n : Nat) : Word := (BitVec.ofNat 16 n).setWidth 32

/-- R31: the read port. All eight addresses are decoded and a read changes nothing (R33). -/
def readPort (a : PortAddr) (s : State) : Word :=
  match a.toNat with
  | 0 => statusWord s
  | 1 => s.res
  | 2 => s.einfo
  | 3 => finishedCrc s
  | 4 => s.crcState
  | 5 => zext16 s.klen
  | 6 => zext16 s.kpos
  | _ => paramWord s.cfg

/-- R157: the value a read returns joins the run's observation; the block does not change (R33). -/
def observe (a : PortAddr) (s : State) : State := { s with observed := s.observed ++ [readPort a s] }

/-- R140: the reset event. The parameters stay (R28), the KEY entries become unspecified (R24; log 5), and what the
host does next and has seen is not the block's. -/
def resetBlock (s : State) : State :=
  { State.resetWith s.cfg with keyEpoch := s.keyEpoch + 1, host := s.host, observed := s.observed }

end Sys2Proof.Machine
end

