-- ==== Sys2Proof/Machine/Cipher.lean ====
section
/-! DEFINITION. The cipher unit of 41_cipher.md: the mixing arithmetic of R90, the key commands R86-R89 and the cipher
commands R91-R96. -/

namespace Sys2Proof.Machine

/-- R90: `EncIdx` on the 8-bit datapath. -/
def encIdx (m p : Index) : Index :=
  let sum : BitVec 8 := m.setWidth 8 + p.setWidth 8
  (if 106#8 ≤ sum then sum - 106#8 else sum).setWidth 7

/-- R90: `DecIdx` on the 8-bit datapath. -/
def decIdx (m p : Index) : Index :=
  (if p ≤ m then m.setWidth 8 - p.setWidth 8 else m.setWidth 8 + 106#8 - p.setWidth 8).setWidth 7

/-- R86: KEY.CLR. -/
def execKeyClr (data : Word) (s : State) : Result :=
  .next (guarded (.keyClr data) (fun s => done (clearKey s)) s)

/-- R87: KEY.PUSH. -/
def execKeyPush (data : Word) (s : State) : Result :=
  .next (guarded (.keyPush data) (fun s => withOperand (checkIdx data) data (appendKey data) s) s)

/-- R88: KEY.PUSHS. -/
def execKeyPushs (data : Word) (s : State) : Result :=
  .next (guarded (.keyPushs data) (fun s => withOperand (checkSym s.cfg data) data (appendKey data) s) s)

/-- R89: KEY.RST. -/
def execKeyRst (data : Word) (s : State) : Result :=
  .next (guarded (.keyRst data) (fun s => done { s with kpos := 0 }) s)

/-- R91: ENC. -/
def execEnc (data : Word) (s : State) : Result :=
  .next (guarded (.enc data)
    (requireKey fun s => withOperand (checkIdx data) data (cipherStep encIdx indexResult) s) s)

/-- R92: DEC. -/
def execDec (data : Word) (s : State) : Result :=
  .next (guarded (.dec data)
    (requireKey fun s => withOperand (checkIdx data) data (cipherStep decIdx indexResult) s) s)

/-- R93: ENCS. -/
def execEncs (data : Word) (s : State) : Result :=
  .next (guarded (.encs data)
    (requireKey fun s => withOperand (checkSym s.cfg data) data (cipherStep encIdx symbolResult) s) s)

/-- R94: DECS. -/
def execDecs (data : Word) (s : State) : Result :=
  .next (guarded (.decs data)
    (requireKey fun s => withOperand (checkSym s.cfg data) data (cipherStep decIdx symbolResult) s) s)

/-- R95: SYM.IDX. -/
def execSymIdx (data : Word) (s : State) : Result :=
  .next (guarded (.symIdx data)
    (fun s => withOperand (checkSym s.cfg data) data
      (fun i s => done (setResult (indexResult s.cfg i) s)) s) s)

/-- R96: IDX.SYM. -/
def execIdxSym (data : Word) (s : State) : Result :=
  .next (guarded (.idxSym data)
    (fun s => withOperand (checkIdx data) data
      (fun i s => done (setResult (symbolResult s.cfg i) s)) s) s)

end Sys2Proof.Machine
end

