-- ==== Sys2Proof/Machine/Control.lean ====
section
/-! DEFINITION. The control commands of 42_control.md, and what an illegal opcode does. -/

namespace Sys2Proof.Machine

/-- R110: NOP. -/
def execNop (data : Word) (s : State) : Result := .next (guarded (.nop data) done s)

/-- R111: STAT.CLR. -/
def execStatClr (data : Word) (s : State) : Result :=
  .next (guarded (.statClr data)
    (fun s => done { s with matchFlag := false, sticky := false, einfo := 0#32 }) s)

/-- R112: an illegal opcode raises IllegalOpcode with `zext32(op)`; its data bits are not examined (R59). -/
def execIllegal (op : BitVec 8) (s : State) : Result := .next (raise .illegalOpcode (op.setWidth 32) s)

end Sys2Proof.Machine
end

