-- ==== Sys2Proof/Machine/Crc.lean ====
section
/-! DEFINITION. The CRC unit of 40_crc.md: the arithmetic of R71 and R72, and CRC.INIT, CRC.B, CRC.W, CRC.CHK. -/

namespace Sys2Proof.Machine

/-- R71: one bit step, least significant bit first. -/
def crcBit (c : Word) : Word :=
  if c.getLsbD 0 then (c >>> 1) ^^^ 0xEDB88320#32 else c >>> 1

/-- R71: `n` bit steps. -/
def crcBits : Nat → Word → Word
  | 0, c => c
  | n + 1, c => crcBits n (crcBit c)

/-- R71: `CrcStep8`. -/
def crcStep8 (c : Word) (b : Byte) : Word := crcBits 8 (c ^^^ b.setWidth 32)

/-- R72: `CrcRaw`. -/
def crcRaw : Word → List Byte → Word
  | c, [] => c
  | c, b :: rest => crcRaw (crcStep8 c b) rest

/-- R72: `CRC32`, the document's checksum of a byte sequence. -/
def crc32 (bytes : List Byte) : Word := crcRaw 0xFFFFFFFF#32 bytes ^^^ 0xFFFFFFFF#32

/-- R79: `T[i]`, the byte-step table. -/
def crcTable (i : Byte) : Word := crcStep8 0#32 i

/-- R75: CRC.INIT. -/
def execCrcInit (data : Word) (s : State) : Result :=
  .next (guarded (.crcInit data) (fun s => done { s with crcState := 0xFFFFFFFF#32 }) s)

/-- R76: CRC.B. -/
def execCrcB (data : Word) (s : State) : Result :=
  .next (guarded (.crcB data) (fun s => done { s with crcState := crcStep8 s.crcState (byteField data) }) s)

/-- R77: CRC.W, four bytes, most significant first. -/
def execCrcW (data : Word) (s : State) : Result :=
  .next (guarded (.crcW data) (fun s => done { s with crcState := crcRaw s.crcState (wordBytes data) }) s)

/-- R78: CRC.CHK. On a mismatch MATCH <- 0 is kept although the command fails (R120). -/
def execCrcChk (data : Word) (s : State) : Result :=
  .next (guarded (.crcChk data)
    (fun s =>
      if finishedCrc s = data then done { s with matchFlag := true }
      else raise .checksumMismatch data { s with matchFlag := false }) s)

end Sys2Proof.Machine
end

