-- ==== Sys2Proof/Machine/Dispatch.lean ====
section
/-! DEFINITION. One arm per command of 30_encoding.md R57. -/

namespace Sys2Proof.Machine

def exec (i : Instr) (s : State) : Host.Outcome State Fault Refusal :=
  match i with
  | .nop data => Sys2Proof.Machine.execNop data s
  | .crcInit data => Sys2Proof.Machine.execCrcInit data s
  | .crcB data => Sys2Proof.Machine.execCrcB data s
  | .crcW data => Sys2Proof.Machine.execCrcW data s
  | .crcChk data => Sys2Proof.Machine.execCrcChk data s
  | .keyClr data => Sys2Proof.Machine.execKeyClr data s
  | .keyPush data => Sys2Proof.Machine.execKeyPush data s
  | .keyPushs data => Sys2Proof.Machine.execKeyPushs data s
  | .keyRst data => Sys2Proof.Machine.execKeyRst data s
  | .enc data => Sys2Proof.Machine.execEnc data s
  | .dec data => Sys2Proof.Machine.execDec data s
  | .encs data => Sys2Proof.Machine.execEncs data s
  | .decs data => Sys2Proof.Machine.execDecs data s
  | .symIdx data => Sys2Proof.Machine.execSymIdx data s
  | .idxSym data => Sys2Proof.Machine.execIdxSym data s
  | .statClr data => Sys2Proof.Machine.execStatClr data s

end Sys2Proof.Machine
end

