-- ==== Sys2Proof/Machine/Step.lean ====
section
/-! DEFINITION. Issuing a command (20_memory.md R41, 30_encoding.md R60) and the step: the host's next transaction. -/

namespace Sys2Proof.Machine

/-- R60: `execute`. -/
def issue (cmd : Cmd) (s : State) : Host.Outcome State Fault Refusal :=
  match decode cmd with
  | .command i => exec i s
  | .illegal op => execIllegal op s

/-- One transaction of the host, in its program order (R23, R43). Where the host has nothing to say the block
waits: its state changes only by commands and reset (R132, R140; log 3). -/
def step (s : State) : Host.Outcome State Fault Refusal :=
  match s.host with
  | [] => .next s
  | .issue cmd :: rest => issue cmd { s with host := rest }
  | .read a :: rest => .next (observe a { s with host := rest })
  | .reset :: rest => .next (resetBlock { s with host := rest })

/-- `s` with the opcode table's word as the next command the host issues (log 4, log 16). -/
def State.withFetchWord (s : State) (nbits w : Nat) : State :=
  { s with host := .issue (tableWord nbits w) :: s.host }

end Sys2Proof.Machine
end

