-- ==== Sys2Proof/Machine/Pseudo.lean ====
section
/-! DEFINITION. The pseudo-instructions of 30_encoding.md R64-R69: expansions into commands of R57. None is a command of
the block. -/

namespace Sys2Proof.Machine

/-- R64: `CRC.BYTES`, four bytes at a time while four remain, then one at a time. -/
def crcBytes : List Byte → List Instr
  | b0 :: b1 :: b2 :: b3 :: rest => .crcW (b0 ++ b1 ++ b2 ++ b3) :: crcBytes rest
  | rest => rest.map fun b => .crcB (b.setWidth 32)

/-- R65: an ASCII text, every character below 128. -/
def isAsciiText (text : List Char) : Bool := text.all fun c => decide (c.toNat < 128)

/-- R65: the byte of an ASCII character, its ASCII code (DEDUCED, log 13: R65 says one byte, and 95_test_vectors.md
feeds the ASCII bytes). -/
def asciiByte (c : Char) : Byte := BitVec.ofNat 8 c.toNat

/-- R65: the bytes of a text as the host stores it: one per character for an ASCII text. R65 leaves any other text to the
host, whose way of storing it is `otherText`, unconstrained (log 13). -/
def textBytes (otherText : List Char → List Byte) (text : List Char) : List Byte :=
  if isAsciiText text then text.map asciiByte else otherText text

/-- R65: `CRC.STR`, which is `CRC.BYTES` over the bytes of the text. -/
def crcStr (otherText : List Char → List Byte) (text : List Char) : List Instr := crcBytes (textBytes otherText text)

/-- R66: `CRC.CHUNK`. -/
def crcChunk (t0 t1 t2 t3 : Byte) (bytes : List Byte) : List Instr :=
  .crcInit 0#32 :: crcBytes (t0 :: t1 :: t2 :: t3 :: bytes)

/-- R67: `KEY.SETI`. -/
def keySetI (indices : List Index) : List Instr :=
  .keyClr 0#32 :: indices.map fun i => .keyPush (i.setWidth 32)

/-- R68: `KEY.SET`. -/
def keySet (passphrase : List Sym) : List Instr :=
  .keyClr 0#32 :: passphrase.map fun c => .keyPushs (c.setWidth 32)

/-- R69: `ENC.STR`. -/
def encStr (message : List Sym) : List Instr :=
  .keyRst 0#32 :: message.map fun c => .encs (c.setWidth 32)

/-- R69: `DEC.STR`. -/
def decStr (message : List Sym) : List Instr :=
  .keyRst 0#32 :: message.map fun c => .decs (c.setWidth 32)

/-- The host issues these commands, one after the other. -/
def issueAll (commands : List Instr) : List Transaction := commands.map fun i => .issue (encode i)

/-- R97, R154: the host issues each command and reads RES after it. -/
def issueReadRes (commands : List Instr) : List Transaction :=
  commands.flatMap fun i => [.issue (encode i), .read 1#3]

/-- Run commands one after the other, the host saying nothing else. -/
def execAll : List Instr → State → Result
  | [], s => .next s
  | i :: rest, s =>
    match exec i s with
    | .next t => execAll rest t
    | .fault r => .fault r
    | .refused r => .refused r

end Sys2Proof.Machine
end

