-- ==== Sys2Proof/Machine/Assembler.lean ====
section
/-! DEFINITION. Assembler lines of 30_encoding.md R63. The text layout R63 leaves open is log 10. -/

namespace Sys2Proof.Machine

/-- R57, R61, R63: each mnemonic, the operand field it takes, and the command it names. -/
def asmTable : List (String × OperandField × (Word → Instr)) :=
  [("NOP", .absent, .nop), ("CRC.INIT", .absent, .crcInit), ("CRC.B", .field 8 false, .crcB),
   ("CRC.W", .field 32 false, .crcW), ("CRC.CHK", .field 32 false, .crcChk), ("KEY.CLR", .absent, .keyClr),
   ("KEY.PUSH", .field 7 false, .keyPush), ("KEY.PUSHS", .field 21 true, .keyPushs),
   ("KEY.RST", .absent, .keyRst), ("ENC", .field 7 false, .enc), ("DEC", .field 7 false, .dec),
   ("ENCS", .field 21 true, .encs), ("DECS", .field 21 true, .decs), ("SYM.IDX", .field 21 true, .symIdx),
   ("IDX.SYM", .field 7 false, .idxSym), ("STAT.CLR", .absent, .statClr)]

/-- R63: a command without an operand has data 0; a number that does not fit the field is refused; a character
literal stands for its code point, for symbol operands. DESIGN CHOICE (log 10): a line that gives no operand to a command
that takes one (`ENC` alone) is refused, and so is an operand given to a command that takes none. -/
def placeOperand (field : OperandField) (operand : AsmOperand) : Option Word :=
  match field, operand with
  | .absent, .absent => some 0#32
  | .field width _, .number n => if n < 2 ^ width then some (BitVec.ofNat 32 n) else none
  | .field width true, .charlit c => if c.toNat < 2 ^ width then some (BitVec.ofNat 32 c.toNat) else none
  | _, _ => none

/-- R63: assemble one command. -/
def assemble (mnemonic : String) (operand : AsmOperand) : Option Instr :=
  match asmTable.find? (·.1 == mnemonic) with
  | none => none
  | some (_, field, command) => (placeOperand field operand).map command

/-- The value of a hex digit, small or capital (log 10). -/
def hexDigit (c : Char) : Option Nat :=
  if '0' ≤ c ∧ c ≤ '9' then some (c.toNat - 48)
  else if 'a' ≤ c ∧ c ≤ 'f' then some (c.toNat - 87)
  else if 'A' ≤ c ∧ c ≤ 'F' then some (c.toNat - 55)
  else none

/-- Read digits of `base` as long as they come: the value, how many, and the rest of the line. -/
def readDigits (base : Nat) : List Char → Nat → Nat → Nat × Nat × List Char
  | [], value, count => (value, count, [])
  | c :: rest, value, count =>
    match hexDigit c with
    | some d => if d < base then readDigits base rest (value * base + d) (count + 1) else (value, count, c :: rest)
    | none => (value, count, c :: rest)

/-- R63: `operand := number | charlit`, or none, and the rest of the line. -/
def readOperand (line : List Char) : Option (AsmOperand × List Char) :=
  match line with
  | [] => some (.absent, [])
  | ';' :: rest => some (.absent, ';' :: rest)
  | '\'' :: c :: '\'' :: rest => some (.charlit c, rest)
  | '0' :: 'x' :: rest =>
    match readDigits 16 rest 0 0 with
    | (_, 0, _) => none
    | (value, _, rest') => some (.number value, rest')
  | _ =>
    match readDigits 10 line 0 0 with
    | (_, 0, _) => none
    | (value, _, rest') => some (.number value, rest')

/-- R63: nothing may follow the operand but a comment, which begins with a semicolon and a space. -/
def endsLine (line : List Char) : Bool :=
  match line with
  | [] => true
  | ';' :: ' ' :: _ => true
  | _ => false

/-- R63: one line of assembler text to its 40-bit word. -/
def assembleLine (line : String) : Option Cmd :=
  let mnemonic := line.toList.takeWhile fun c => c != ' ' && c != ';'
  let rest := (line.toList.drop mnemonic.length).dropWhile (· == ' ')
  match readOperand rest with
  | none => none
  | some (operand, tail) =>
    if endsLine (tail.dropWhile (· == ' ')) then (assemble (String.ofList mnemonic) operand).map encode else none

end Sys2Proof.Machine
end

