-- ==== Sys2Proof/Machine/Document.lean ====
section
/-! DEFINITION. The document's functions that the block realises, as functions of whole sequences: the chunk checksum
(40_crc.md R74), text_to_indices and indices_to_text (41_cipher.md R100), encrypt and decrypt (R97, R98). -/

namespace Sys2Proof.Machine

/-- R117: the document's error kinds that the cipher functions carry. -/
inductive DocError where
  | emptyPassphrase
  | unsupportedCharacter (c : Sym)
  deriving DecidableEq, Repr

/-- R74: the CRC a chunk stores, over the type code and the data, not the length. -/
def chunkCrc (t0 t1 t2 t3 : Byte) (bytes : List Byte) : Word := crc32 (t0 :: t1 :: t2 :: t3 :: bytes)

/-- R100: text_to_indices, failing at the first character outside the alphabet. -/
def textToIndices (c : Config) : List Sym → Except DocError (List Index)
  | [] => .ok []
  | x :: rest =>
    match indexOf c x with
    | none => .error (.unsupportedCharacter x)
    | some i =>
      match textToIndices c rest with
      | .ok indices => .ok (i :: indices)
      | .error e => .error e

/-- R100: indices_to_text. -/
def indicesToText (c : Config) (indices : List Index) : List Sym := indices.map (symbolAt c)

/-- R97: passphrase index at position `i mod passphrase_length`, as a number. -/
def passAt (p : List Index) (i : Nat) : Nat := (p.getD (i % p.length) 0#7).toNat

/-- R97: `encrypt(m, p)_i = (m_i + p_{i mod L}) mod 106`. -/
def encryptIndices (m p : List Index) : List Index :=
  m.mapIdx fun i x => BitVec.ofNat 7 ((x.toNat + passAt p i) % 106)

/-- R98: `decrypt(m, p)_i = (m_i - p_{i mod L}) mod 106`, the true modulo of R9. -/
def decryptIndices (m p : List Index) : List Index :=
  m.mapIdx fun i x => BitVec.ofNat 7 (((x.toNat : Int) - (passAt p i : Int)) % 106).toNat

/-- R97: a whole-text function over a whole-index function: the passphrase must be non-empty, both texts are converted,
the passphrase first. That order is the model's choice, as on the block (I13); the document gives none (N11; log 14,
DEDUCED). -/
def cipherText (f : List Index → List Index → List Index) (c : Config) (message passphrase : List Sym) :
    Except DocError (List Sym) :=
  if passphrase = [] then .error .emptyPassphrase
  else
    match textToIndices c passphrase with
    | .error e => .error e
    | .ok p =>
      match textToIndices c message with
      | .error e => .error e
      | .ok m => .ok (indicesToText c (f m p))

/-- R97: the document's encrypt. -/
def encryptText (c : Config) (message passphrase : List Sym) : Except DocError (List Sym) :=
  cipherText encryptIndices c message passphrase

/-- R98: the document's decrypt. -/
def decryptText (c : Config) (message passphrase : List Sym) : Except DocError (List Sym) :=
  cipherText decryptIndices c message passphrase

end Sys2Proof.Machine
end

