-- ==== Sys2Proof/Machine/Protocol.lean ====
section
/-! DEFINITION. The host protocol of 70_reset_and_hazards.md R150-R153: what a host that follows it does with the block's
two ports, and what it reports. -/

namespace Sys2Proof.Machine

/-- R151: what the host reports instead of a result. -/
inductive HostStop where
  /-- A command's ERR and EINFO, or the host's own EmptyPassphrase (R152). -/
  | reported (err : BitVec 4) (info : Word)
  /-- The block did not complete the command; never happens in this model (log 15). -/
  | blockStopped
  deriving DecidableEq, Repr

/-- R46: `all` is one of the orders in which the transactions of two hosts can reach the block, no command divided. The
block does not tell hosts apart, so every such list is a possible `State.host` (log 9). -/
inductive Interleaves : List Transaction → List Transaction → List Transaction → Prop where
  | nil : Interleaves [] [] []
  | first {x : Transaction} {a b all : List Transaction} : Interleaves a b all → Interleaves (x :: a) b (x :: all)
  | second {y : Transaction} {a b all : List Transaction} : Interleaves a b all → Interleaves a (y :: b) (y :: all)

/-- R117: how the host reports an error of the document. -/
def DocError.report : DocError → HostStop
  | .emptyPassphrase => .reported 1#4 0#32
  | .unsupportedCharacter c => .reported 2#4 (c.setWidth 32)

/-- R150, R151: issue one command and read STATUS; on ERR ≠ 0 read EINFO and report (log 14). -/
def hostIssue (i : Instr) (s : State) : Except HostStop Unit × State :=
  match issue (encode i) s with
  | .next t =>
    if (readPort 0#3 t).extractLsb' 0 4 = 0#4 then (.ok (), t)
    else (.error (.reported ((readPort 0#3 t).extractLsb' 0 4) (readPort 2#3 t)), t)
  | .fault _ => (.error .blockStopped, s)
  | .refused _ => (.error .blockStopped, s)

/-- Commands one after the other, up to the first that reports an error. -/
def hostIssueAll : List Instr → State → Except HostStop Unit × State
  | [], s => (.ok (), s)
  | i :: rest, s =>
    match hostIssue i s with
    | (.ok _, t) => hostIssueAll rest t
    | (.error e, t) => (.error e, t)

/-- R150: one command per character, reading RES after each; R151: on an error every RES value is discarded. -/
def hostMessage (command : Word → Instr) : List Sym → State → Except HostStop (List Word) × State
  | [], s => (.ok [], s)
  | c :: rest, s =>
    match hostIssue (command (c.setWidth 32)) s with
    | (.error e, t) => (.error e, t)
    | (.ok _, t) =>
      match hostMessage command rest t with
      | (.ok out, u) => (.ok (readPort 1#3 t :: out), u)
      | (.error e, u) => (.error e, u)

/-- R150, R152: one call of the document's encrypt or decrypt, the passphrase loaded first. For an empty message with
an empty passphrase no command of the block can raise EmptyPassphrase, so the host reports it. DESIGN CHOICE (log 18):
R152 does not say whether KEY.CLR is still issued then; here no command is, and a key of an earlier call stays loaded. -/
def hostCipher (command : Word → Instr) (message passphrase : List Sym) (s : State) :
    Except HostStop (List Word) × State :=
  if message = [] ∧ passphrase = [] then (.error (.reported 1#4 0#32), s)
  else
    match hostIssueAll (keySet passphrase) s with
    | (.ok _, t) => hostMessage command message t
    | (.error e, t) => (.error e, t)

/-- R150: one call that reuses the loaded key: KEY.RST first; R152 with the key length the host reads,
and no KEY.RST issued before its report (DESIGN CHOICE, log 18). -/
def hostCipherAgain (command : Word → Instr) (message : List Sym) (s : State) :
    Except HostStop (List Word) × State :=
  if message = [] ∧ readPort 5#3 s = 0#32 then (.error (.reported 1#4 0#32), s)
  else
    match hostIssueAll [.keyRst 0#32] s with
    | (.ok _, t) => hostMessage command message t
    | (.error e, t) => (.error e, t)

/-- R150: encrypt a message. -/
def hostEncrypt (message passphrase : List Sym) (s : State) : Except HostStop (List Word) × State :=
  hostCipher .encs message passphrase s

/-- R150: decrypt a message. -/
def hostDecrypt (message passphrase : List Sym) (s : State) : Except HostStop (List Word) × State :=
  hostCipher .decs message passphrase s

/-- R153, to build: feed the chunk and read the CRC, to be stored big-endian (R49). -/
def hostBuildCrc (t0 t1 t2 t3 : Byte) (bytes : List Byte) (s : State) : Except HostStop (List Byte) × State :=
  match hostIssueAll (crcChunk t0 t1 t2 t3 bytes) s with
  | (.ok _, t) => (.ok (wordBytes (readPort 3#3 t)), t)
  | (.error e, t) => (.error e, t)

/-- R153, to check: feed the chunk, then CRC.CHK with the four stored bytes assembled big-endian (R49), then read
MATCH. -/
def hostCheckCrc (t0 t1 t2 t3 : Byte) (bytes : List Byte) (c0 c1 c2 c3 : Byte) (s : State) :
    Except HostStop Bool × State :=
  match hostIssueAll (crcChunk t0 t1 t2 t3 bytes ++ [.crcChk (c0 ++ c1 ++ c2 ++ c3)]) s with
  | (.ok _, t) => (.ok ((readPort 0#3 t).getLsbD 4), t)
  | (.error e, t) => (.error e, t)

end Sys2Proof.Machine
end

