-- ==== Sys2Proof/Safety.lean ====
section
/-! DEFINITION. The terms claims are stated in: the legal states of the block (10_state.md R27 and the ranges of R20,
R22, R24, R29; R5 and R6 for its parameters), a step that is not stopped, the priority of errors (60_exceptions.md
R122), what two states may differ in unseen (R24), and what a sequence of commands did. -/

namespace Sys2Proof.Machine

/-- R27: the position is within the passphrase. -/
abbrev State.KeyPosition (s : State) : Prop :=
  (s.klen = 0 ∧ s.kpos = 0) ∨ (1 ≤ s.klen ∧ s.kpos < s.klen)

/-- The states a block can be in. R141: every command is defined in every state that meets R27. -/
structure State.Inv (s : State) : Prop where
  /-- R5, R6: the parameters are ones a block may be built with (R6's classes of symbols as log 7 reads them). -/
  cfg_legal : s.cfg.legal = true
  /-- R24: the buffer has KMAX entries. -/
  key_length : s.key.length = s.cfg.kmax
  /-- R25: the passphrase fits the buffer. -/
  klen_le : s.klen ≤ s.cfg.kmax
  /-- R27. -/
  key_position : s.KeyPosition
  /-- R24: every entry written holds a value in 0..105. -/
  key_entries : ∀ e ∈ s.key.take s.klen, e.toNat < 106
  /-- R22: ERR is 0 to 7. -/
  err_le : s.err.toNat ≤ 7
  /-- R22: an error of the last command is among those STICKY records. -/
  err_sticky : s.err ≠ 0#4 → s.sticky = true
  /-- R30, R111: EINFO is zero until a command fails. -/
  einfo_sticky : s.sticky = false → s.einfo = 0#32
  /-- R29: RES holds an index or a code point. -/
  res_lt : s.res.toNat < 2 ^ 21

/-- A step or command that answers a next state: it neither faults nor is refused. -/
def Completes (o : Result) : Prop := ∃ t, o = .next t

/-- R57: the 16 opcode values of the opcode map. -/
def legalOpcodes : List (BitVec 8) :=
  [0x00#8, 0x01#8, 0x02#8, 0x03#8, 0x04#8, 0x10#8, 0x11#8, 0x12#8, 0x13#8, 0x14#8, 0x15#8, 0x16#8, 0x17#8, 0x18#8,
   0x19#8, 0xF0#8]

/-- R59: the illegal opcode values, as the rule lists their ranges. -/
def IllegalOpcode (op : BitVec 8) : Prop :=
  (0x05 ≤ op.toNat ∧ op.toNat ≤ 0x0F) ∨ (0x1A ≤ op.toNat ∧ op.toNat ≤ 0xEF) ∨ (0xF1 ≤ op.toNat ∧ op.toNat ≤ 0xFF)

/-- R58: `reserved_mask(op)`, by opcode value. -/
def reservedMaskOf (op : BitVec 8) : Word :=
  if op ∈ [0x00#8, 0x01#8, 0x10#8, 0x13#8, 0xF0#8] then 0xFFFFFFFF#32
  else if op = 0x02#8 then 0xFFFFFF00#32
  else if op ∈ [0x11#8, 0x14#8, 0x15#8, 0x19#8] then 0xFFFFFF80#32
  else if op ∈ [0x12#8, 0x16#8, 0x17#8, 0x18#8] then 0xFFE00000#32
  else 0x00000000#32

/-- R122: the code of the first error that applies to a command, checks in the order of that rule; 0 for none. -/
def firstError (cmd : Cmd) (s : State) : BitVec 4 :=
  if opOf cmd ∉ legalOpcodes then 7#4
  else if dataOf cmd &&& reservedMaskOf (opOf cmd) ≠ 0#32 then 6#4
  else if opOf cmd ∈ [0x14#8, 0x15#8, 0x16#8, 0x17#8] ∧ s.klen = 0 then 1#4
  else if opOf cmd ∈ [0x11#8, 0x14#8, 0x15#8, 0x19#8] ∧ 106 ≤ ((dataOf cmd).extractLsb' 0 7).toNat then 4#4
  else if opOf cmd ∈ [0x12#8, 0x16#8, 0x17#8, 0x18#8]
      ∧ (dataOf cmd).extractLsb' 0 21 ∉ s.cfg.alphabet.toList then 2#4
  else if opOf cmd ∈ [0x11#8, 0x12#8] ∧ s.klen = s.cfg.kmax then 5#4
  else if opOf cmd = 0x04#8 ∧ s.crcState ^^^ 0xFFFFFFFF#32 ≠ dataOf cmd then 3#4
  else 0#4

/-- R117: what EINFO holds after an error of this code. -/
def errorPayload (cmd : Cmd) (code : BitVec 4) : Word :=
  if code = 1#4 then 0x00000000#32
  else if code = 7#4 then (opOf cmd).setWidth 32
  else dataOf cmd

/-- R24, R35: two states a host cannot tell apart: they differ in key entries at or above klen only (and in the model's
own counter of log 5). -/
def SameButKeyTail (s t : State) : Prop :=
  t = { s with key := t.key, keyEpoch := t.keyEpoch } ∧ t.key.take s.klen = s.key.take s.klen

/-- R73: the bytes a command feeds to the CRC, in order; none if its reserved bits are set (R58). -/
def fedBytes : Instr → List Byte
  | .crcB d => if d &&& 0xFFFFFF00#32 = 0#32 then [d.extractLsb' 0 8] else []
  | .crcW d => [d.extractLsb' 24 8, d.extractLsb' 16 8, d.extractLsb' 8 8, d.extractLsb' 0 8]
  | _ => []

/-- The commands of 41_cipher.md section 2. -/
def isKeyCommand : Instr → Bool
  | .keyClr _ => true
  | .keyPush _ => true
  | .keyPushs _ => true
  | .keyRst _ => true
  | _ => false

/-- The commands that use a key entry: ENC, DEC, ENCS and DECS. -/
def isMixing : Instr → Bool
  | .enc _ => true
  | .dec _ => true
  | .encs _ => true
  | .decs _ => true
  | _ => false

/-- R45: the commands of the CRC unit. -/
def isCrcCommand : Instr → Bool
  | .crcInit _ => true
  | .crcB _ => true
  | .crcW _ => true
  | .crcChk _ => true
  | _ => false

/-- R45: the commands of the cipher unit. -/
def isCipherCommand (i : Instr) : Bool :=
  isKeyCommand i || isMixing i || (match i with | .symIdx _ => true | .idxSym _ => true | _ => false)

/-- R101: how many of these commands are ENC, DEC, ENCS or DECS and succeed. -/
def successfulMixes : List Instr → State → Nat
  | [], _ => 0
  | i :: rest, s =>
    match exec i s with
    | .next t => (if isMixing i = true ∧ t.err = 0#4 then 1 else 0) + successfulMixes rest t
    | _ => 0

/-- R22: some of these commands fails. -/
def someFails : List Instr → State → Bool
  | [], _ => false
  | i :: rest, s =>
    match exec i s with
    | .next t => decide (t.err ≠ 0#4) || someFails rest t
    | _ => false

end Sys2Proof.Machine
end

