-- ==== Sys2Proof/Certificates/Slice0/Obligations.lean ====
section
/-! DEFINITION. The statements for the provers, from the numbered rules of spec/. -/

open Sys2Proof Sys2Proof.Machine

/-! ### Encoding and decoding (30_encoding.md) -/

/-- R55, R57, R60: encoding and decoding are inverse to each other on the legal opcodes, every operand bit kept, and a
word is refused exactly with its own opcode, which no command has (R59). -/
def Obligations.DecodeAndEncodeAreInverse : Prop :=
  (∀ i : Instr, decode (encode i) = .command i) ∧
  (∀ (cmd : Cmd) (i : Instr), decode cmd = .command i → encode i = cmd) ∧
  (∀ (cmd : Cmd) (op : BitVec 8), decode cmd = .illegal op → op = opOf cmd ∧ ∀ i : Instr, i.opcode ≠ op)

/-- R63, R112, 95_test_vectors.md: words written out in the spec decode to the commands it names. -/
def Obligations.ManualWordsDecode : Prop :=
  decode 0x0200000052#40 = .command (.crcB 0x52#32) ∧
  decode 0x0352755374#40 = .command (.crcW 0x52755374#32) ∧
  decode 0x04ABD1D84E#40 = .command (.crcChk 0xABD1D84E#32) ∧
  decode 0x1200000070#40 = .command (.keyPushs 0x70#32) ∧
  decode 0x1400000069#40 = .command (.enc 105#32) ∧
  decode 0x18001FFFFF#40 = .command (.symIdx 0x1FFFFF#32) ∧
  decode 0xF000000000#40 = .command (.statClr 0#32) ∧
  decode 0x05DEADBEEF#40 = .illegal 0x05#8

/-- R58, R118: the reserved masks by opcode, and a command with a reserved bit set raises ReservedBits with EINFO =
data before any other check of its own, and changes nothing else. -/
def Obligations.ReservedBitsRaise : Prop :=
  ∀ (i : Instr) (s : State), i.reservedMask = reservedMaskOf i.opcode ∧
    (i.data &&& reservedMaskOf i.opcode ≠ 0#32 →
      exec i s = .next { s with err := 6#4, sticky := true, einfo := i.data })

/-- R59, R112: an issued word with an illegal opcode, whatever its data bits, raises IllegalOpcode with EINFO =
zext32(op), changes nothing else of the block, and the block goes on. -/
def Obligations.IllegalOpcodeRaises : Prop :=
  ∀ (op : BitVec 8) (data : Word) (s : State) (rest : List Transaction), IllegalOpcode op →
    s.host = .issue (op ++ data) :: rest →
    decode (op ++ data) = .illegal op ∧
    step s = .next { s with host := rest, err := 7#4, sticky := true, einfo := op.setWidth 32 }

/-! ### The step and the ports (20_memory.md, 10_state.md) -/

/-- R41, R60: where the host's next transaction issues a word that decodes to a command, the step is that command's
meaning on the state with the transaction taken. -/
def Obligations.StepRunsIssuedCommand : Prop :=
  ∀ (s : State) (cmd : Cmd) (rest : List Transaction) (i : Instr),
    s.host = .issue cmd :: rest → decode cmd = .command i → step s = exec i { s with host := rest }

/-- R132, R140: with nothing from the host the block waits, unchanged (the model's choice, log 3). -/
def Obligations.BlockWaitsForHost : Prop :=
  ∀ s : State, s.host = [] → step s = .next s

/-- R31, R32: the read-port map, all eight addresses. -/
def Obligations.ReadPortMap : Prop :=
  ∀ s : State, s.Inv →
    readPort 0#3 s = 0#26 ++ BitVec.ofBool s.sticky ++ BitVec.ofBool s.matchFlag ++ s.err ∧
    readPort 1#3 s = s.res ∧
    readPort 2#3 s = s.einfo ∧
    readPort 3#3 s = s.crcState ^^^ 0xFFFFFFFF#32 ∧
    readPort 4#3 s = s.crcState ∧
    (readPort 5#3 s).toNat = s.klen ∧
    (readPort 6#3 s).toNat = s.kpos ∧
    (readPort 7#3 s).toNat = 106 * 2 ^ 16 + s.cfg.kmax

/-- R33, R43: a read returns the register as the commands before it left it, and changes nothing of the block. That it
takes a step and appends to `observed` is the model's choice (log 3). -/
def Obligations.ReadHasNoSideEffect : Prop :=
  ∀ (s : State) (a : PortAddr) (rest : List Transaction), s.host = .read a :: rest →
    step s = .next { s with host := rest, observed := s.observed ++ [readPort a s] }

/-- R140: the reset event sets every register but KEY to its reset value in any state, and keeps the parameters (R28).
KEY is left out: its reset value is unspecified (R24; log 5). -/
def Obligations.ResetEventSetsRegisters : Prop :=
  ∀ (s : State) (rest : List Transaction), s.host = .reset :: rest →
    ∃ t, step s = .next t ∧ t.crcState = 0xFFFFFFFF#32 ∧ t.klen = 0 ∧ t.kpos = 0 ∧ t.res = 0#32 ∧ t.einfo = 0#32 ∧
      t.err = 0#4 ∧ t.matchFlag = false ∧ t.sticky = false ∧ t.cfg = s.cfg ∧ t.host = rest ∧ t.observed = s.observed

/-- R140, R5, R32: the state after reset, as the read port shows it with the default KMAX. -/
def Obligations.ResetReadsAsStated : Prop :=
  readPort 0#3 State.reset = 0x00000000#32 ∧
  readPort 1#3 State.reset = 0x00000000#32 ∧
  readPort 2#3 State.reset = 0x00000000#32 ∧
  readPort 3#3 State.reset = 0x00000000#32 ∧
  readPort 4#3 State.reset = 0xFFFFFFFF#32 ∧
  readPort 5#3 State.reset = 0x00000000#32 ∧
  readPort 6#3 State.reset = 0x00000000#32 ∧
  readPort 7#3 State.reset = 0x006A0100#32

/-! ### Each command's result and frame: everything the record update does not name is unchanged -/

/-- R110. -/
def Obligations.NopResult : Prop :=
  ∀ (data : Word) (s : State), decode (0x00#8 ++ data) = .command (.nop data) ∧
    exec (.nop data) s = .next
      (if data = 0#32 then { s with err := 0#4 }
       else { s with err := 6#4, sticky := true, einfo := data })

/-- R111. -/
def Obligations.StatClrResult : Prop :=
  ∀ (data : Word) (s : State), decode (0xF0#8 ++ data) = .command (.statClr data) ∧
    exec (.statClr data) s = .next
      (if data = 0#32 then { s with err := 0#4, matchFlag := false, sticky := false, einfo := 0#32 }
       else { s with err := 6#4, sticky := true, einfo := data })

/-- R75. -/
def Obligations.CrcInitResult : Prop :=
  ∀ (data : Word) (s : State), decode (0x01#8 ++ data) = .command (.crcInit data) ∧
    exec (.crcInit data) s = .next
      (if data = 0#32 then { s with err := 0#4, crcState := 0xFFFFFFFF#32 }
       else { s with err := 6#4, sticky := true, einfo := data })

/-- R76. -/
def Obligations.CrcByteResult : Prop :=
  ∀ (data : Word) (s : State), decode (0x02#8 ++ data) = .command (.crcB data) ∧
    exec (.crcB data) s = .next
      (if data &&& 0xFFFFFF00#32 = 0#32 then
         { s with err := 0#4, crcState := crcStep8 s.crcState (data.extractLsb' 0 8) }
       else { s with err := 6#4, sticky := true, einfo := data })

/-- R77. -/
def Obligations.CrcWordResult : Prop :=
  ∀ (data : Word) (s : State), decode (0x03#8 ++ data) = .command (.crcW data) ∧
    exec (.crcW data) s = .next
      { s with
        err := 0#4
        crcState :=
          crcStep8 (crcStep8 (crcStep8 (crcStep8 s.crcState (data.extractLsb' 24 8)) (data.extractLsb' 16 8))
            (data.extractLsb' 8 8)) (data.extractLsb' 0 8) }

/-- R78, R120: MATCH <- 0 is kept although a mismatch fails. -/
def Obligations.CrcCheckResult : Prop :=
  ∀ (data : Word) (s : State), decode (0x04#8 ++ data) = .command (.crcChk data) ∧
    exec (.crcChk data) s = .next
      (if s.crcState ^^^ 0xFFFFFFFF#32 = data then { s with err := 0#4, matchFlag := true }
       else { s with err := 3#4, sticky := true, einfo := data, matchFlag := false })

/-- R86. Nothing is said of `keyEpoch`, the model's own counter (log 5). -/
def Obligations.KeyClearResult : Prop :=
  ∀ (data : Word) (s : State), decode (0x10#8 ++ data) = .command (.keyClr data) ∧
    ∃ epoch : Nat, exec (.keyClr data) s = .next
      (if data = 0#32 then { s with err := 0#4, klen := 0, kpos := 0, keyEpoch := epoch }
       else { s with err := 6#4, sticky := true, einfo := data })

/-- R87: index operand, checks in order, entry klen written. -/
def Obligations.KeyPushResult : Prop :=
  ∀ (data : Word) (s : State), decode (0x11#8 ++ data) = .command (.keyPush data) ∧
    exec (.keyPush data) s = .next
      (if data &&& 0xFFFFFF80#32 ≠ 0#32 then { s with err := 6#4, sticky := true, einfo := data }
       else if 106 ≤ (data.extractLsb' 0 7).toNat then { s with err := 4#4, sticky := true, einfo := data }
       else if s.klen = s.cfg.kmax then { s with err := 5#4, sticky := true, einfo := data }
       else { s with err := 0#4, key := s.key.set s.klen (data.extractLsb' 0 7), klen := s.klen + 1 })

/-- R88: symbol operand, checks in order, its index written at entry klen. -/
def Obligations.KeyPushSymbolResult : Prop :=
  ∀ (data : Word) (s : State), decode (0x12#8 ++ data) = .command (.keyPushs data) ∧
    exec (.keyPushs data) s = .next
      (if data &&& 0xFFE00000#32 ≠ 0#32 then { s with err := 6#4, sticky := true, einfo := data }
       else
         match indexOf s.cfg (data.extractLsb' 0 21) with
         | none => { s with err := 2#4, sticky := true, einfo := data }
         | some i =>
           if s.klen = s.cfg.kmax then { s with err := 5#4, sticky := true, einfo := data }
           else { s with err := 0#4, key := s.key.set s.klen i, klen := s.klen + 1 })

/-- R89. -/
def Obligations.KeyRestartResult : Prop :=
  ∀ (data : Word) (s : State), decode (0x13#8 ++ data) = .command (.keyRst data) ∧
    exec (.keyRst data) s = .next
      (if data = 0#32 then { s with err := 0#4, kpos := 0 }
       else { s with err := 6#4, sticky := true, einfo := data })

/-- R91: the sum modulo 106 with the key entry at kpos, in every state the rules define (R27). -/
def Obligations.EncryptIndexResult : Prop :=
  ∀ (data : Word) (s : State), s.Inv → decode (0x14#8 ++ data) = .command (.enc data) ∧
    exec (.enc data) s = .next
      (if data &&& 0xFFFFFF80#32 ≠ 0#32 then { s with err := 6#4, sticky := true, einfo := data }
       else if s.klen = 0 then { s with err := 1#4, sticky := true, einfo := 0#32 }
       else if 106 ≤ (data.extractLsb' 0 7).toNat then { s with err := 4#4, sticky := true, einfo := data }
       else
         { s with
           err := 0#4
           res := BitVec.ofNat 32 (((data.extractLsb' 0 7).toNat + (s.key.getD s.kpos 0#7).toNat) % 106)
           kpos := (s.kpos + 1) % s.klen })

/-- R92: the difference modulo 106, the true modulo of R9 (`%` on Int is never negative for a positive divisor). -/
def Obligations.DecryptIndexResult : Prop :=
  ∀ (data : Word) (s : State), s.Inv → decode (0x15#8 ++ data) = .command (.dec data) ∧
    exec (.dec data) s = .next
      (if data &&& 0xFFFFFF80#32 ≠ 0#32 then { s with err := 6#4, sticky := true, einfo := data }
       else if s.klen = 0 then { s with err := 1#4, sticky := true, einfo := 0#32 }
       else if 106 ≤ (data.extractLsb' 0 7).toNat then { s with err := 4#4, sticky := true, einfo := data }
       else
         { s with
           err := 0#4
           res := BitVec.ofInt 32
             ((((data.extractLsb' 0 7).toNat : Int) - ((s.key.getD s.kpos 0#7).toNat : Int)) % 106)
           kpos := (s.kpos + 1) % s.klen })

/-- R93: the symbol at the sum modulo 106 of the operand's index and the key entry at kpos. -/
def Obligations.EncryptSymbolResult : Prop :=
  ∀ (data : Word) (s : State), s.Inv → decode (0x16#8 ++ data) = .command (.encs data) ∧
    exec (.encs data) s = .next
      (if data &&& 0xFFE00000#32 ≠ 0#32 then { s with err := 6#4, sticky := true, einfo := data }
       else if s.klen = 0 then { s with err := 1#4, sticky := true, einfo := 0#32 }
       else
         match indexOf s.cfg (data.extractLsb' 0 21) with
         | none => { s with err := 2#4, sticky := true, einfo := data }
         | some m =>
           { s with
             err := 0#4
             res := (s.cfg.alphabet[(m.toNat + (s.key.getD s.kpos 0#7).toNat) % 106]'
               (Nat.mod_lt _ (Nat.succ_pos 105))).setWidth 32
             kpos := (s.kpos + 1) % s.klen })

/-- R94: the symbol at the difference modulo 106; adding 106 first keeps the number natural for entries below 106. -/
def Obligations.DecryptSymbolResult : Prop :=
  ∀ (data : Word) (s : State), s.Inv → decode (0x17#8 ++ data) = .command (.decs data) ∧
    exec (.decs data) s = .next
      (if data &&& 0xFFE00000#32 ≠ 0#32 then { s with err := 6#4, sticky := true, einfo := data }
       else if s.klen = 0 then { s with err := 1#4, sticky := true, einfo := 0#32 }
       else
         match indexOf s.cfg (data.extractLsb' 0 21) with
         | none => { s with err := 2#4, sticky := true, einfo := data }
         | some m =>
           { s with
             err := 0#4
             res := (s.cfg.alphabet[(m.toNat + 106 - (s.key.getD s.kpos 0#7).toNat) % 106]'
               (Nat.mod_lt _ (Nat.succ_pos 105))).setWidth 32
             kpos := (s.kpos + 1) % s.klen })

/-- R95. -/
def Obligations.SymbolToIndexResult : Prop :=
  ∀ (data : Word) (s : State), decode (0x18#8 ++ data) = .command (.symIdx data) ∧
    exec (.symIdx data) s = .next
      (if data &&& 0xFFE00000#32 ≠ 0#32 then { s with err := 6#4, sticky := true, einfo := data }
       else
         match indexOf s.cfg (data.extractLsb' 0 21) with
         | none => { s with err := 2#4, sticky := true, einfo := data }
         | some i => { s with err := 0#4, res := i.setWidth 32 })

/-- R96. -/
def Obligations.IndexToSymbolResult : Prop :=
  ∀ (data : Word) (s : State), decode (0x19#8 ++ data) = .command (.idxSym data) ∧
    exec (.idxSym data) s = .next
      (if data &&& 0xFFFFFF80#32 ≠ 0#32 then { s with err := 6#4, sticky := true, einfo := data }
       else if h : (data.extractLsb' 0 7).toNat < 106 then
         { s with err := 0#4, res := (s.cfg.alphabet[(data.extractLsb' 0 7).toNat]'h).setWidth 32 }
       else { s with err := 4#4, sticky := true, einfo := data })

/-! ### Errors (60_exceptions.md) -/

/-- R117, R119, R120, R122, R123: where errors apply to an issued word, the first in the order of R122 is reported: the
state after it is the state before it with that error's code, STICKY and payload, but for MATCH <- 0 of a CRC.CHK that
finds a mismatch (code 3). -/
def Obligations.FirstErrorIsAllThatFails : Prop :=
  ∀ (cmd : Cmd) (s : State), firstError cmd s ≠ 0#4 →
    issue cmd s = .next
      { s with
        err := firstError cmd s
        sticky := true
        einfo := errorPayload cmd (firstError cmd s)
        matchFlag := if firstError cmd s = 3#4 then false else s.matchFlag }

/-- R121: where no error applies to an issued word, the command writes ERR <- 0 and leaves STICKY and EINFO unchanged,
except for STAT.CLR. -/
def Obligations.SuccessKeepsStickyAndPayload : Prop :=
  ∀ (cmd : Cmd) (s : State), firstError cmd s = 0#4 →
    ∃ t, issue cmd s = .next t ∧ t.err = 0#4 ∧
      ((∀ data, decode cmd ≠ .command (.statClr data)) → t.sticky = s.sticky ∧ t.einfo = s.einfo)

/-- R52, last sentence: repeating a failing command with the same operands gives the same error and the same state. -/
def Obligations.FailingCommandRepeats : Prop :=
  ∀ (cmd : Cmd) (s t : State), issue cmd s = .next t → t.err ≠ 0#4 → issue cmd t = .next t

/-- R22: after any commands but STAT.CLR, STICKY is 1 exactly if it was before or one of them failed. -/
def Obligations.StickyRecordsFailures : Prop :=
  ∀ (commands : List Instr) (s : State), (∀ i ∈ commands, ∀ data, i ≠ .statClr data) →
    ∃ t, execAll commands s = .next t ∧ t.sticky = (s.sticky || someFails commands s)

/-! ### The whole machine (10_state.md, 20_memory.md, 70_reset_and_hazards.md) -/

/-- R27, R22, R24, R25, R29, R30: every step, whatever the host does next, keeps the legal states legal (R6's classes
of symbols as log 7 reads them). -/
def Obligations.StepKeepsLegalState : Prop :=
  ∀ s t : State, s.Inv → step s = .next t → t.Inv

/-- R27, R140: a block with legal parameters is in a legal state after reset, the reset state among them
(R6's classes of symbols as log 7 reads them). -/
def Obligations.ResetIsLegalState : Prop :=
  (∀ c : Config, c.legal = true → (State.resetWith c).Inv) ∧ State.reset.Inv

/-- The model's choice, no rule of the spec: that the block goes on in EVERY state. In states that meet R27 it is read from
R112 ("it does not halt or lock up") and R141 ("every command is defined"), log 15 (DEDUCED); for states outside R27 it is
log 6 (DESIGN CHOICE), and that waiting, a read and a reset are steps is log 3 and log 8 (DESIGN CHOICE). -/
def Obligations.EveryStepCompletes : Prop :=
  ∀ s : State, Completes (step s)

/-- R20, R28: no command, read or reset changes KMAX or ALPHABET. The second clause is the model's choice, no rule of the
spec (log 3): `observed` is the model's own field, a read is a step, and a step keeps what was observed before or appends
one read's value. -/
def Obligations.StepKeepsParameters : Prop :=
  ∀ s t : State, step s = .next t →
    t.cfg = s.cfg ∧ (t.observed = s.observed ∨ ∃ a, t.observed = s.observed ++ [readPort a s])

/-- R34 with R21, R24, R25, R26, R29, R22: which commands can change which register. -/
def Obligations.RegistersChangeOnlyByTheirCommands : Prop :=
  ∀ (i : Instr) (s t : State), exec i s = .next t →
    (t.crcState ≠ s.crcState → i.opcode ∈ [0x01#8, 0x02#8, 0x03#8]) ∧
    (t.key ≠ s.key → i.opcode ∈ [0x11#8, 0x12#8] ∧ ∃ v, t.key = s.key.set s.klen v) ∧
    (t.klen ≠ s.klen → i.opcode ∈ [0x10#8, 0x11#8, 0x12#8]) ∧
    (t.kpos ≠ s.kpos → i.opcode ∈ [0x10#8, 0x13#8, 0x14#8, 0x15#8, 0x16#8, 0x17#8]) ∧
    (t.res ≠ s.res → i.opcode ∈ [0x14#8, 0x15#8, 0x16#8, 0x17#8, 0x18#8, 0x19#8]) ∧
    (t.matchFlag ≠ s.matchFlag → i.opcode ∈ [0x04#8, 0xF0#8]) ∧
    (t.sticky = false → s.sticky = true → i.opcode = 0xF0#8) ∧
    t.host = s.host ∧ t.observed = s.observed ∧ t.cfg = s.cfg

/-- R45: CRC commands neither read nor write KEY, klen and kpos, and cipher commands neither read nor write crc_state. -/
def Obligations.UnitsAreIndependent : Prop :=
  ∀ (i : Instr) (s t : State), exec i s = .next t →
    (isCrcCommand i = true → ∀ (key : List Index) (klen kpos : Nat),
      exec i { s with key := key, klen := klen, kpos := kpos } =
        .next { t with key := key, klen := klen, kpos := kpos } ∧
      t.key = s.key ∧ t.klen = s.klen ∧ t.kpos = s.kpos) ∧
    (isCipherCommand i = true → ∀ crc : Word,
      exec i { s with crcState := crc } = .next { t with crcState := crc } ∧ t.crcState = s.crcState)

/-- R24, R35, I1: key entries at or above klen are never seen: two legal states that differ in them only take steps to
states that differ in them only, with the same values read. -/
def Obligations.KeyTailIsUnobservable : Prop :=
  ∀ s t : State, s.Inv → t.Inv → SameButKeyTail s t →
    ∃ s' t', step s = .next s' ∧ step t = .next t' ∧ SameButKeyTail s' t'

/-! ### CRC unit (40_crc.md) -/

/-- R79: the table form of the byte step, with the rule's sample entries. -/
def Obligations.CrcTableForm : Prop :=
  (∀ (c : Word) (b : Byte),
    crcStep8 c b = (c >>> 8) ^^^ crcTable ((c ^^^ b.setWidth 32).extractLsb' 0 8)) ∧
  crcTable 0x00#8 = 0x00000000#32 ∧ crcTable 0x01#8 = 0x77073096#32 ∧ crcTable 0x02#8 = 0xEE0E612C#32 ∧
  crcTable 0x03#8 = 0x990951BA#32 ∧ crcTable 0x80#8 = 0xEDB88320#32 ∧ crcTable 0xFF#8 = 0x2D02EF8D#32

/-- R80, R73, R21: whatever commands but CRC.INIT are issued, failing ones and those of the other unit among them, the
CRC register is the raw CRC of the bytes fed, in order, from where it was. -/
def Obligations.CrcFollowsFedBytes : Prop :=
  ∀ (commands : List Instr) (s : State), (∀ i ∈ commands, ∀ data, i ≠ .crcInit data) →
    ∃ t, execAll commands s = .next t ∧ t.crcState = crcRaw s.crcState (commands.flatMap fedBytes)

/-- R72: after CRC.INIT and the bytes of B fed by CRC.B and CRC.W, read address 3 is CRC32(B); CRC32([]) = 0. -/
def Obligations.InitThenFeedGivesChecksum : Prop :=
  (∀ (commands : List Instr) (s : State),
    (∀ i ∈ commands, (∃ b : Byte, i = .crcB (b.setWidth 32)) ∨ ∃ w, i = .crcW w) →
    ∃ t, execAll (.crcInit 0#32 :: commands) s = .next t ∧ readPort 3#3 t = crc32 (commands.flatMap fedBytes)) ∧
  crc32 [] = 0x00000000#32

/-- R83: CRC.W leaves the state that its four bytes by CRC.B leave. -/
def Obligations.CrcWordIsFourBytes : Prop :=
  ∀ (w : Word) (s : State),
    execAll [.crcW w] s =
      execAll [.crcB ((w.extractLsb' 24 8).setWidth 32), .crcB ((w.extractLsb' 16 8).setWidth 32),
        .crcB ((w.extractLsb' 8 8).setWidth 32), .crcB ((w.extractLsb' 0 8).setWidth 32)] s

/-- R81: linearity, and a change of exactly one bit changes the finished CRC, from whatever register value. -/
def Obligations.SingleBitChangeIsDetected : Prop :=
  (∀ (c : Word) (bytes other : List Byte), bytes.length = other.length →
    crcRaw c bytes ^^^ crcRaw c other = crcRaw 0#32 (List.zipWith (· ^^^ ·) bytes other)) ∧
  (∀ (c : Word) (before after : List Byte) (b : Byte) (k : Nat), k < 8 →
    crcRaw c (before ++ b :: after) ^^^ 0xFFFFFFFF#32 ≠
      crcRaw c (before ++ (b ^^^ (1#8 <<< k)) :: after) ^^^ 0xFFFFFFFF#32)

/-- R84: the residue for the finished CRC fed least significant byte first, and none for the big-endian order. -/
def Obligations.ResidueIsConstant : Prop :=
  (∀ bytes : List Byte,
    crcRaw 0xFFFFFFFF#32 (bytes ++ (wordBytes (crc32 bytes)).reverse) = 0xDEBB20E3#32) ∧
  ¬ ∃ r : Word, ∀ bytes : List Byte, crcRaw 0xFFFFFFFF#32 (bytes ++ wordBytes (crc32 bytes)) = r

/-- R64, R66, R74: the expansions of CRC.BYTES and CRC.CHUNK are well-formed commands that feed the bytes in order, and
after CRC.CHUNK the read port gives the chunk's CRC. -/
def Obligations.ChunkExpansionGivesChunkCrc : Prop :=
  (∀ bytes : List Byte, (crcBytes bytes).flatMap fedBytes = bytes ∧ ∀ i ∈ crcBytes bytes, i.wellFormed = true) ∧
  (∀ (t0 t1 t2 t3 : Byte) (bytes : List Byte) (s : State),
    ∃ t, execAll (crcChunk t0 t1 t2 t3 bytes) s = .next t ∧
      readPort 3#3 t = crc32 (t0 :: t1 :: t2 :: t3 :: bytes))

/-! ### Cipher unit (41_cipher.md) -/

/-- R6, its last sentence: `IDX(c)` is `some i` when `ALPHABET[i] = c`, else none, for a legal alphabet. -/
def Obligations.IndexOfInvertsAlphabet : Prop :=
  ∀ (c : Config) (sym : Sym) (i : Index), c.legal = true →
    (indexOf c sym = some i ↔ ∃ h : i.toNat < 106, c.alphabet[i.toNat]'h = sym)

/-- R90: both mixing functions are the true modulo for indices, and its laws. -/
def Obligations.MixingIsTrueModulo : Prop :=
  ∀ m p : Index, m.toNat < 106 → p.toNat < 106 →
    (encIdx m p).toNat = (m.toNat + p.toNat) % 106 ∧
    ((decIdx m p).toNat : Int) = ((m.toNat : Int) - (p.toNat : Int)) % 106 ∧
    decIdx (encIdx m p) p = m ∧ encIdx (decIdx m p) p = m ∧ encIdx m 0#7 = m ∧ decIdx m 0#7 = m

/-- R87, R88, R24: in a legal state with room, a pushed index is what the next read of its entry gives, the entries
below it are unchanged, and the position stays. -/
def Obligations.PushedEntryReadsBack : Prop :=
  ∀ (s : State) (i : Index), s.Inv → i.toNat < 106 → s.klen < s.cfg.kmax →
    ∃ t, exec (.keyPush (i.setWidth 32)) s = .next t ∧ keyEntry t s.klen = i ∧ t.klen = s.klen + 1 ∧
      t.kpos = s.kpos ∧ ∀ j, j < s.klen → keyEntry t j = keyEntry s j

/-- R67: KEY.SETI loads a passphrase that fits, from any legal state. -/
def Obligations.KeySetLoadsPassphrase : Prop :=
  ∀ (s : State) (p : List Index), s.Inv → p.length ≤ s.cfg.kmax → (∀ x ∈ p, x.toNat < 106) →
    ∃ t, execAll (keySetI p) s = .next t ∧ t.Inv ∧ t.klen = p.length ∧ t.kpos = 0 ∧ t.err = 0#4 ∧
      ∀ (j : Nat) (h : j < p.length), keyEntry t j = p[j]

/-- R97, R98: with RES read after each ENC (or DEC), the i-th value read is `(m_i + p_{i mod L}) mod 106` (or the
difference), from any legal state, the host saying nothing else in between. -/
def Obligations.MessageIsDocumentFunction : Prop :=
  ∀ (s : State) (p m : List Index) (rest : List Transaction), s.Inv → p ≠ [] → p.length ≤ s.cfg.kmax →
    (∀ x ∈ p, x.toNat < 106) → (∀ x ∈ m, x.toNat < 106) →
    (∃ t, Host.Core.run Sys2Proof.core (p.length + 1 + 2 * m.length)
        { s with host := issueAll (keySetI p) ++ issueReadRes (m.map fun x => .enc (x.setWidth 32)) ++ rest } =
          .next t ∧
      t.host = rest ∧ t.observed = s.observed ++ (encryptIndices m p).map fun x => x.setWidth 32) ∧
    (∃ t, Host.Core.run Sys2Proof.core (p.length + 1 + 2 * m.length)
        { s with host := issueAll (keySetI p) ++ issueReadRes (m.map fun x => .dec (x.setWidth 32)) ++ rest } =
          .next t ∧
      t.host = rest ∧ t.observed = s.observed ++ (decryptIndices m p).map fun x => x.setWidth 32)

/-- R99: with the same key, encrypting a message over the alphabet and decrypting the result gives it back. -/
def Obligations.RoundTripGivesMessage : Prop :=
  ∀ (s : State) (message : List Sym), s.Inv → 1 ≤ s.klen → (∀ c ∈ message, c ∈ s.cfg.alphabet.toList) →
    ∃ out t u, hostCipherAgain .encs message s = (.ok out, t) ∧
      hostCipherAgain .decs (out.map fun w => w.setWidth 21) t = (.ok (message.map fun c => c.setWidth 32), u)

/-- R100: SYM.IDX then IDX.SYM of its result gives the symbol back, and IDX.SYM then SYM.IDX the index. -/
def Obligations.CharacterConversionInverts : Prop :=
  (∀ (s : State) (c : Sym), s.Inv → c ∈ s.cfg.alphabet.toList →
    ∃ t u, exec (.symIdx (c.setWidth 32)) s = .next t ∧ exec (.idxSym t.res) t = .next u ∧
      u.err = 0#4 ∧ u.res = c.setWidth 32) ∧
  (∀ (s : State) (i : Index), s.Inv → i.toNat < 106 →
    ∃ t u, exec (.idxSym (i.setWidth 32)) s = .next t ∧ exec (.symIdx t.res) t = .next u ∧
      u.err = 0#4 ∧ u.res = i.setWidth 32)

/-- R101: from position 0, whatever commands but the key commands are issued, the position is the number of successful
ENC, DEC, ENCS and DECS modulo klen; failing ones and all other commands do not count. -/
def Obligations.PositionCountsSuccessfulMixes : Prop :=
  ∀ (commands : List Instr) (s : State), 1 ≤ s.klen → s.kpos = 0 →
    (∀ i ∈ commands, isKeyCommand i = false) →
    ∃ t, execAll commands s = .next t ∧ t.klen = s.klen ∧ t.kpos = successfulMixes commands s % s.klen

/-! ### Host protocol (70_reset_and_hazards.md) and assembler (30_encoding.md) -/

/-- R150, R151, R152: a host that follows the protocol gets the document's encrypt and decrypt from any legal state. Of its
errors, WHICH is reported where passphrase and message both hold unsupported characters is the model's choice and no rule
of the document (N11; log 14, DEDUCED): `cipherText` converts the passphrase first, the order of the block (I13). That the
host reads STATUS after the key commands too, and stops there, is log 14 as well. -/
def Obligations.ProtocolGivesDocumentFunction : Prop :=
  ∀ (s : State) (message passphrase : List Sym), s.Inv → passphrase.length ≤ s.cfg.kmax →
    (hostEncrypt message passphrase s).1 =
      (match encryptText s.cfg message passphrase with
       | .ok out => .ok (out.map fun c => c.setWidth 32)
       | .error e => .error e.report) ∧
    (hostDecrypt message passphrase s).1 =
      (match decryptText s.cfg message passphrase with
       | .ok out => .ok (out.map fun c => c.setWidth 32)
       | .error e => .error e.report)

/-- R153, R49: a chunk built by the protocol passes the check with the four bytes stored, and any other four stored
bytes are reported as ChecksumMismatch with the stored value. -/
def Obligations.BuiltChunkPassesCheck : Prop :=
  ∀ (t0 t1 t2 t3 : Byte) (bytes : List Byte) (c0 c1 c2 c3 : Byte) (s : State),
    (hostBuildCrc t0 t1 t2 t3 bytes s).1 = .ok (wordBytes (chunkCrc t0 t1 t2 t3 bytes)) ∧
    (hostCheckCrc t0 t1 t2 t3 bytes c0 c1 c2 c3 s).1 =
      if [c0, c1, c2, c3] = wordBytes (chunkCrc t0 t1 t2 t3 bytes) then .ok true
      else .error (.reported 3#4 (c0 ++ c1 ++ c2 ++ c3))

/-- R63: what the assembler accepts is well-formed: it refuses a number that does not fit the field, and a command
without operand has data 0. -/
def Obligations.AssembledCommandsAreLegal : Prop :=
  ∀ (mnemonic : String) (operand : AsmOperand) (i : Instr), assemble mnemonic operand = some i →
    i.wellFormed = true ∧ (operand = .absent → i.data = 0#32) ∧
      (∀ n, operand = .number n → i.data.toNat = n) ∧ (∀ c, operand = .charlit c → i.data.toNat = c.toNat)

/-- R63: the rule's three examples. -/
def Obligations.AssemblerExamples : Prop :=
  assembleLine "CRC.B 0x52" = some 0x0200000052#40 ∧
  assembleLine "KEY.PUSHS 'p'" = some 0x1200000070#40 ∧
  assembleLine "ENC 105" = some 0x1400000069#40

/-- R65, with R64 and R83: CRC.STR of an ASCII text feeds one byte per character, in order, and changes nothing but
crc_state and ERR, whatever the host does with other texts. Any other text is fed as the host stores it, of which R65 says
nothing (log 13). That the byte is the character's ASCII code is DEDUCED (log 13). -/
def Obligations.CrcStrFeedsText : Prop :=
  ∀ (otherText : List Char → List Byte) (text : List Char) (s : State),
    ((∀ c ∈ text, c.toNat < 128) →
      execAll (crcStr otherText text) s =
        .next { s with
          crcState := crcRaw s.crcState (text.map fun c => BitVec.ofNat 8 c.toNat)
          err := if text = [] then s.err else 0#4 }) ∧
    ((∃ c ∈ text, 128 ≤ c.toNat) →
      execAll (crcStr otherText text) s =
        .next { s with
          crcState := crcRaw s.crcState (otherText text)
          err := if otherText text = [] then s.err else 0#4 })
end

