-- ==== Sys2Proof/Laws/Config.lean ====
section
/-! SUPPORT. What a legal alphabet has (00_scope.md R6), and that the alphabet of the reset state is one. -/

namespace Sys2Proof

theorem exampleAlphabet_legal : alphabetLegal exampleAlphabet = true := by decide +kernel

/-- Log 2: whatever the OPEN alphabet is, the one of the reset state meets R6. -/
theorem builtAlphabet_legal : alphabetLegal Config.builtAlphabet = true := by
  unfold Config.builtAlphabet
  split
  · assumption
  · exact exampleAlphabet_legal

theorem lettersAndDigits_nodup : lettersAndDigits.Nodup := by decide +kernel

theorem lettersAndDigits_length : lettersAndDigits.length = 62 := by decide

/-- What the check says, one part of R6 each. -/
theorem alphabetLegal_iff (a : Vector Sym 106) :
    alphabetLegal a = true ↔
      a.toList.Nodup ∧ (∀ c ∈ a.toList, isScalarValue c = true) ∧ (∀ c ∈ requiredSymbols, c ∈ a.toList) ∧
        (∀ c ∈ a.toList, isAlphabetSymbol c = true) ∧ ∃ c ∈ a.toList, isAccentedLetter c = true := by
  simp only [alphabetLegal, Bool.and_eq_true, decide_eq_true_eq, List.all_eq_true, List.any_eq_true,
    List.contains_iff_mem, and_assoc]

/-- R6: the 62 letters and digits and 44 other symbols, each of them punctuation or an accented letter. -/
theorem legal_alphabet_has_62_and_44 {a : Vector Sym 106} (h : alphabetLegal a = true) :
    (a.toList.filter lettersAndDigits.contains).length = 62 ∧
      (a.toList.filter fun c => !lettersAndDigits.contains c).length = 44 ∧
      ∀ c ∈ a.toList.filter (fun c => !lettersAndDigits.contains c),
        isPunctuation c = true ∨ isAccentedLetter c = true := by
  obtain ⟨distinct, -, required, classes, -⟩ := (alphabetLegal_iff a).mp h
  have perm : (a.toList.filter lettersAndDigits.contains).Perm lettersAndDigits := by
    refine (List.perm_ext_iff_of_nodup (distinct.filter _) lettersAndDigits_nodup).mpr fun c => ?_
    rw [List.mem_filter, List.contains_iff_mem]
    exact ⟨And.right, fun hc => ⟨required c (List.mem_append_left _ hc), hc⟩⟩
  have basic := perm.length_eq.trans lettersAndDigits_length
  have split := List.length_eq_length_filter_add (l := a.toList) lettersAndDigits.contains
  have size : a.toList.length = 106 := Vector.length_toList
  refine ⟨basic, by omega, fun c hc => ?_⟩
  obtain ⟨hm, ho⟩ := List.mem_filter.mp hc
  have hs := classes c hm
  unfold isAlphabetSymbol at hs
  simp only [Bool.or_eq_true, Bool.not_eq_true'] at hs ho
  rcases hs with (hs | hs) | hs
  · rw [hs] at ho
    cases ho
  · exact .inl hs
  · exact .inr hs

end Sys2Proof
end

