-- ==== Sys2Proof/Laws/State.lean ====
section
/-! SUPPORT. What each named update of the state does to each field: one lemma per field per update. -/

namespace Sys2Proof.Machine

variable (s : State)

@[simp] theorem raise_cfg (e : ErrorKind) (info : Word) : (raise e info s).cfg = s.cfg := rfl
@[simp] theorem raise_crcState (e : ErrorKind) (info : Word) : (raise e info s).crcState = s.crcState := rfl
@[simp] theorem raise_key (e : ErrorKind) (info : Word) : (raise e info s).key = s.key := rfl
@[simp] theorem raise_klen (e : ErrorKind) (info : Word) : (raise e info s).klen = s.klen := rfl
@[simp] theorem raise_kpos (e : ErrorKind) (info : Word) : (raise e info s).kpos = s.kpos := rfl
@[simp] theorem raise_res (e : ErrorKind) (info : Word) : (raise e info s).res = s.res := rfl
@[simp] theorem raise_einfo (e : ErrorKind) (info : Word) : (raise e info s).einfo = info := rfl
@[simp] theorem raise_err (e : ErrorKind) (info : Word) : (raise e info s).err = e.code := rfl
@[simp] theorem raise_matchFlag (e : ErrorKind) (info : Word) : (raise e info s).matchFlag = s.matchFlag := rfl
@[simp] theorem raise_sticky (e : ErrorKind) (info : Word) : (raise e info s).sticky = true := rfl
@[simp] theorem raise_keyEpoch (e : ErrorKind) (info : Word) : (raise e info s).keyEpoch = s.keyEpoch := rfl
@[simp] theorem raise_host (e : ErrorKind) (info : Word) : (raise e info s).host = s.host := rfl
@[simp] theorem raise_observed (e : ErrorKind) (info : Word) : (raise e info s).observed = s.observed := rfl

@[simp] theorem done_cfg : (done s).cfg = s.cfg := rfl
@[simp] theorem done_crcState : (done s).crcState = s.crcState := rfl
@[simp] theorem done_key : (done s).key = s.key := rfl
@[simp] theorem done_klen : (done s).klen = s.klen := rfl
@[simp] theorem done_kpos : (done s).kpos = s.kpos := rfl
@[simp] theorem done_res : (done s).res = s.res := rfl
@[simp] theorem done_einfo : (done s).einfo = s.einfo := rfl
@[simp] theorem done_err : (done s).err = 0#4 := rfl
@[simp] theorem done_matchFlag : (done s).matchFlag = s.matchFlag := rfl
@[simp] theorem done_sticky : (done s).sticky = s.sticky := rfl
@[simp] theorem done_keyEpoch : (done s).keyEpoch = s.keyEpoch := rfl
@[simp] theorem done_host : (done s).host = s.host := rfl
@[simp] theorem done_observed : (done s).observed = s.observed := rfl

@[simp] theorem clearKey_cfg : (clearKey s).cfg = s.cfg := rfl
@[simp] theorem clearKey_crcState : (clearKey s).crcState = s.crcState := rfl
@[simp] theorem clearKey_key : (clearKey s).key = s.key := rfl
@[simp] theorem clearKey_klen : (clearKey s).klen = 0 := rfl
@[simp] theorem clearKey_kpos : (clearKey s).kpos = 0 := rfl
@[simp] theorem clearKey_res : (clearKey s).res = s.res := rfl
@[simp] theorem clearKey_einfo : (clearKey s).einfo = s.einfo := rfl
@[simp] theorem clearKey_err : (clearKey s).err = s.err := rfl
@[simp] theorem clearKey_matchFlag : (clearKey s).matchFlag = s.matchFlag := rfl
@[simp] theorem clearKey_sticky : (clearKey s).sticky = s.sticky := rfl
@[simp] theorem clearKey_keyEpoch : (clearKey s).keyEpoch = s.keyEpoch + 1 := rfl
@[simp] theorem clearKey_host : (clearKey s).host = s.host := rfl
@[simp] theorem clearKey_observed : (clearKey s).observed = s.observed := rfl

@[simp] theorem advanceKey_cfg : (advanceKey s).cfg = s.cfg := rfl
@[simp] theorem advanceKey_crcState : (advanceKey s).crcState = s.crcState := rfl
@[simp] theorem advanceKey_key : (advanceKey s).key = s.key := rfl
@[simp] theorem advanceKey_klen : (advanceKey s).klen = s.klen := rfl
@[simp] theorem advanceKey_kpos : (advanceKey s).kpos = (s.kpos + 1) % s.klen := rfl
@[simp] theorem advanceKey_res : (advanceKey s).res = s.res := rfl
@[simp] theorem advanceKey_einfo : (advanceKey s).einfo = s.einfo := rfl
@[simp] theorem advanceKey_err : (advanceKey s).err = s.err := rfl
@[simp] theorem advanceKey_matchFlag : (advanceKey s).matchFlag = s.matchFlag := rfl
@[simp] theorem advanceKey_sticky : (advanceKey s).sticky = s.sticky := rfl
@[simp] theorem advanceKey_keyEpoch : (advanceKey s).keyEpoch = s.keyEpoch := rfl
@[simp] theorem advanceKey_host : (advanceKey s).host = s.host := rfl
@[simp] theorem advanceKey_observed : (advanceKey s).observed = s.observed := rfl

@[simp] theorem setResult_cfg (v : Word) : (setResult v s).cfg = s.cfg := rfl
@[simp] theorem setResult_crcState (v : Word) : (setResult v s).crcState = s.crcState := rfl
@[simp] theorem setResult_key (v : Word) : (setResult v s).key = s.key := rfl
@[simp] theorem setResult_klen (v : Word) : (setResult v s).klen = s.klen := rfl
@[simp] theorem setResult_kpos (v : Word) : (setResult v s).kpos = s.kpos := rfl
@[simp] theorem setResult_res (v : Word) : (setResult v s).res = v := rfl
@[simp] theorem setResult_einfo (v : Word) : (setResult v s).einfo = s.einfo := rfl
@[simp] theorem setResult_err (v : Word) : (setResult v s).err = s.err := rfl
@[simp] theorem setResult_matchFlag (v : Word) : (setResult v s).matchFlag = s.matchFlag := rfl
@[simp] theorem setResult_sticky (v : Word) : (setResult v s).sticky = s.sticky := rfl
@[simp] theorem setResult_keyEpoch (v : Word) : (setResult v s).keyEpoch = s.keyEpoch := rfl
@[simp] theorem setResult_host (v : Word) : (setResult v s).host = s.host := rfl
@[simp] theorem setResult_observed (v : Word) : (setResult v s).observed = s.observed := rfl

@[simp] theorem observe_cfg (a : PortAddr) : (observe a s).cfg = s.cfg := rfl
@[simp] theorem observe_crcState (a : PortAddr) : (observe a s).crcState = s.crcState := rfl
@[simp] theorem observe_key (a : PortAddr) : (observe a s).key = s.key := rfl
@[simp] theorem observe_klen (a : PortAddr) : (observe a s).klen = s.klen := rfl
@[simp] theorem observe_kpos (a : PortAddr) : (observe a s).kpos = s.kpos := rfl
@[simp] theorem observe_res (a : PortAddr) : (observe a s).res = s.res := rfl
@[simp] theorem observe_einfo (a : PortAddr) : (observe a s).einfo = s.einfo := rfl
@[simp] theorem observe_err (a : PortAddr) : (observe a s).err = s.err := rfl
@[simp] theorem observe_matchFlag (a : PortAddr) : (observe a s).matchFlag = s.matchFlag := rfl
@[simp] theorem observe_sticky (a : PortAddr) : (observe a s).sticky = s.sticky := rfl
@[simp] theorem observe_keyEpoch (a : PortAddr) : (observe a s).keyEpoch = s.keyEpoch := rfl
@[simp] theorem observe_host (a : PortAddr) : (observe a s).host = s.host := rfl
@[simp] theorem observe_observed (a : PortAddr) : (observe a s).observed = s.observed ++ [readPort a s] := rfl

@[simp] theorem resetBlock_cfg : (resetBlock s).cfg = s.cfg := rfl
@[simp] theorem resetBlock_crcState : (resetBlock s).crcState = 0xFFFFFFFF#32 := rfl
@[simp] theorem resetBlock_key : (resetBlock s).key = List.replicate s.cfg.kmax 0#7 := rfl
@[simp] theorem resetBlock_klen : (resetBlock s).klen = 0 := rfl
@[simp] theorem resetBlock_kpos : (resetBlock s).kpos = 0 := rfl
@[simp] theorem resetBlock_res : (resetBlock s).res = 0#32 := rfl
@[simp] theorem resetBlock_einfo : (resetBlock s).einfo = 0#32 := rfl
@[simp] theorem resetBlock_err : (resetBlock s).err = 0#4 := rfl
@[simp] theorem resetBlock_matchFlag : (resetBlock s).matchFlag = false := rfl
@[simp] theorem resetBlock_sticky : (resetBlock s).sticky = false := rfl
@[simp] theorem resetBlock_keyEpoch : (resetBlock s).keyEpoch = s.keyEpoch + 1 := rfl
@[simp] theorem resetBlock_host : (resetBlock s).host = s.host := rfl
@[simp] theorem resetBlock_observed : (resetBlock s).observed = s.observed := rfl

@[simp] theorem withFetchWord_cfg (nbits w : Nat) : (s.withFetchWord nbits w).cfg = s.cfg := rfl
@[simp] theorem withFetchWord_crcState (nbits w : Nat) : (s.withFetchWord nbits w).crcState = s.crcState := rfl
@[simp] theorem withFetchWord_key (nbits w : Nat) : (s.withFetchWord nbits w).key = s.key := rfl
@[simp] theorem withFetchWord_klen (nbits w : Nat) : (s.withFetchWord nbits w).klen = s.klen := rfl
@[simp] theorem withFetchWord_kpos (nbits w : Nat) : (s.withFetchWord nbits w).kpos = s.kpos := rfl
@[simp] theorem withFetchWord_res (nbits w : Nat) : (s.withFetchWord nbits w).res = s.res := rfl
@[simp] theorem withFetchWord_einfo (nbits w : Nat) : (s.withFetchWord nbits w).einfo = s.einfo := rfl
@[simp] theorem withFetchWord_err (nbits w : Nat) : (s.withFetchWord nbits w).err = s.err := rfl
@[simp] theorem withFetchWord_matchFlag (nbits w : Nat) : (s.withFetchWord nbits w).matchFlag = s.matchFlag := rfl
@[simp] theorem withFetchWord_sticky (nbits w : Nat) : (s.withFetchWord nbits w).sticky = s.sticky := rfl
@[simp] theorem withFetchWord_keyEpoch (nbits w : Nat) : (s.withFetchWord nbits w).keyEpoch = s.keyEpoch := rfl
@[simp] theorem withFetchWord_host (nbits w : Nat) : (s.withFetchWord nbits w).host = .issue (tableWord nbits w) :: s.host := rfl
@[simp] theorem withFetchWord_observed (nbits w : Nat) : (s.withFetchWord nbits w).observed = s.observed := rfl

@[simp] theorem resetWith_cfg (c : Config) : (State.resetWith c).cfg = c := rfl
@[simp] theorem resetWith_crcState (c : Config) : (State.resetWith c).crcState = 0xFFFFFFFF#32 := rfl
@[simp] theorem resetWith_key (c : Config) : (State.resetWith c).key = List.replicate c.kmax 0#7 := rfl
@[simp] theorem resetWith_klen (c : Config) : (State.resetWith c).klen = 0 := rfl
@[simp] theorem resetWith_kpos (c : Config) : (State.resetWith c).kpos = 0 := rfl
@[simp] theorem resetWith_res (c : Config) : (State.resetWith c).res = 0#32 := rfl
@[simp] theorem resetWith_einfo (c : Config) : (State.resetWith c).einfo = 0#32 := rfl
@[simp] theorem resetWith_err (c : Config) : (State.resetWith c).err = 0#4 := rfl
@[simp] theorem resetWith_matchFlag (c : Config) : (State.resetWith c).matchFlag = false := rfl
@[simp] theorem resetWith_sticky (c : Config) : (State.resetWith c).sticky = false := rfl
@[simp] theorem resetWith_keyEpoch (c : Config) : (State.resetWith c).keyEpoch = 0 := rfl
@[simp] theorem resetWith_host (c : Config) : (State.resetWith c).host = [] := rfl
@[simp] theorem resetWith_observed (c : Config) : (State.resetWith c).observed = [] := rfl

end Sys2Proof.Machine
end

