-- ==== Sys2Proof/Laws/Crc.lean ====
section
/-! SUPPORT. The algebra of the CRC step (40_crc.md R71, R72): it is linear, and a byte sequence may be split anywhere.
The bytes of a text (30_encoding.md R65). -/

namespace Sys2Proof.Machine

theorem crcBit_xor (a b : Word) : crcBit (a ^^^ b) = crcBit a ^^^ crcBit b := by
  have cancel (x y p : Word) : (x ^^^ p) ^^^ (y ^^^ p) = x ^^^ y := by
    rw [BitVec.xor_comm y p, BitVec.xor_assoc, ← BitVec.xor_assoc p p y, BitVec.xor_self, BitVec.zero_xor]
  unfold crcBit
  rw [BitVec.getLsbD_xor, BitVec.ushiftRight_xor_distrib]
  cases a.getLsbD 0 <;> cases b.getLsbD 0
  · rfl
  · exact BitVec.xor_assoc ..
  · show (a >>> 1 ^^^ b >>> 1) ^^^ _ = (a >>> 1 ^^^ _) ^^^ b >>> 1
    ac_rfl
  · exact (cancel ..).symm

theorem crcBits_xor (n : Nat) (a b : Word) : crcBits n (a ^^^ b) = crcBits n a ^^^ crcBits n b := by
  induction n generalizing a b with
  | zero => rfl
  | succ n ih => simp only [crcBits, crcBit_xor, ih]

theorem crcBits_add (m n : Nat) (c : Word) : crcBits (m + n) c = crcBits n (crcBits m c) := by
  induction m generalizing c with
  | zero => rw [Nat.zero_add]; rfl
  | succ m ih => rw [Nat.succ_add]; exact ih (crcBit c)

@[simp] theorem crcRaw_nil (c : Word) : crcRaw c [] = c := rfl

@[simp] theorem crcRaw_cons (c : Word) (b : Byte) (rest : List Byte) :
    crcRaw c (b :: rest) = crcRaw (crcStep8 c b) rest := rfl

/-- R80: a CRC may be fed in any split. -/
theorem crcRaw_append (c : Word) (front back : List Byte) :
    crcRaw c (front ++ back) = crcRaw (crcRaw c front) back := by
  induction front generalizing c with
  | nil => rfl
  | cons b front ih => exact ih (crcStep8 c b)

/-- R71: one byte step is the step of the register XOR the byte. -/
theorem crcStep8_xor (c d : Word) (b e : Byte) :
    crcStep8 (c ^^^ d) (b ^^^ e) = crcStep8 c b ^^^ crcStep8 d e := by
  have h : (c ^^^ d) ^^^ (b ^^^ e).setWidth 32 = (c ^^^ b.setWidth 32) ^^^ (d ^^^ e.setWidth 32) := by
    rw [BitVec.setWidth_xor]
    ac_rfl
  unfold crcStep8
  rw [h, crcBits_xor]

theorem isAsciiText_iff {text : List Char} : isAsciiText text = true ↔ ∀ c ∈ text, c.toNat < 128 := by
  simp [isAsciiText]

/-- R65: one byte per character for an ASCII text, whatever the host does with other texts. -/
theorem textBytes_ascii (otherText : List Char → List Byte) {text : List Char} (h : ∀ c ∈ text, c.toNat < 128) :
    textBytes otherText text = text.map asciiByte :=
  if_pos (isAsciiText_iff.mpr h)

/-- R65: any other text is as the host stores it. -/
theorem textBytes_other (otherText : List Char → List Byte) {text : List Char} (h : ∃ c ∈ text, 128 ≤ c.toNat) :
    textBytes otherText text = otherText text := by
  obtain ⟨c, hc, hn⟩ := h
  exact if_neg fun ascii => absurd (isAsciiText_iff.mp ascii c hc) (Nat.not_lt.mpr hn)

end Sys2Proof.Machine
end

