-- ==== Sys2Proof/Laws/PerInstr.lean ====
section
/-! SUPPORT. The per-instruction family EncodeFields: where 30_encoding.md R55 puts a command's opcode and operand. -/

namespace Sys2Proof.Laws.EncodeFields

open Sys2Proof

/-- R55: the opcode stands in bits 39:32 and the operand word in bits 31:0. -/
def Statement (i : Instr) : Prop := opOf (encode i) = i.opcode ∧ dataOf (encode i) = i.data

theorem of_append (op : BitVec 8) (data : Word) : opOf (op ++ data) = op ∧ dataOf (op ++ data) = data := by
  have bit (k : Nat) : (op ++ data : Cmd).getLsbD k = if k < 32 then data.getLsbD k else op.getLsbD (k - 32) :=
    (BitVec.getLsbD_append (x := op) (y := data) (i := k)).trans (by cases Decidable.em (k < 32) <;> simp_all)
  constructor
  · apply BitVec.eq_of_getLsbD_eq
    intro k hk
    simp [opOf, bit, hk]
  · apply BitVec.eq_of_getLsbD_eq
    intro k hk
    simp [dataOf, bit, hk]

theorem nop (data : Word) : Statement (.nop data) := of_append _ _
theorem crcInit (data : Word) : Statement (.crcInit data) := of_append _ _
theorem crcB (data : Word) : Statement (.crcB data) := of_append _ _
theorem crcW (data : Word) : Statement (.crcW data) := of_append _ _
theorem crcChk (data : Word) : Statement (.crcChk data) := of_append _ _
theorem keyClr (data : Word) : Statement (.keyClr data) := of_append _ _
theorem keyPush (data : Word) : Statement (.keyPush data) := of_append _ _
theorem keyPushs (data : Word) : Statement (.keyPushs data) := of_append _ _
theorem keyRst (data : Word) : Statement (.keyRst data) := of_append _ _
theorem enc (data : Word) : Statement (.enc data) := of_append _ _
theorem dec (data : Word) : Statement (.dec data) := of_append _ _
theorem encs (data : Word) : Statement (.encs data) := of_append _ _
theorem decs (data : Word) : Statement (.decs data) := of_append _ _
theorem symIdx (data : Word) : Statement (.symIdx data) := of_append _ _
theorem idxSym (data : Word) : Statement (.idxSym data) := of_append _ _
theorem statClr (data : Word) : Statement (.statClr data) := of_append _ _

end Sys2Proof.Laws.EncodeFields
end

