-- ==== Sys2Proof/Laws/Decode.lean ====
section
/-! SUPPORT. What decoding a word says of its fields (30_encoding.md R55, R60). -/

namespace Sys2Proof

/-- Every bit of a command word is its opcode's or its operand's. -/
theorem append_fields (cmd : Cmd) : opOf cmd ++ dataOf cmd = cmd := by
  apply BitVec.eq_of_getLsbD_eq
  intro k hk
  refine (BitVec.getLsbD_append (x := opOf cmd) (y := dataOf cmd) (i := k)).trans ?_
  by_cases h : k < 32
  · simp [h, dataOf]
  · have h8 : k - 32 < 8 := by omega
    have hk' : 32 + (k - 32) = k := by omega
    simp [h, opOf, h8, hk']

theorem decode_append (op : BitVec 8) (data : Word) :
    decode (op ++ data) = match commandOf op data with | some i => .command i | none => .illegal op := by
  obtain ⟨hop, hdata⟩ := Laws.EncodeFields.of_append op data
  cases h : commandOf op data <;> simp [decode, hop, hdata, h]

/-- One row of an opcode chain: this row's command, or a later row's. -/
theorem row_some {p : Prop} [Decidable p] {a i : Instr} {rest : Option Instr}
    (h : (if p then some a else rest) = some i) : (p ∧ a = i) ∨ rest = some i := by
  split at h
  · exact .inl ⟨‹_›, Option.some.inj h⟩
  · exact .inr h

theorem commandOf_some {op : BitVec 8} {data : Word} {i : Instr} (h : commandOf op data = some i) :
    op = i.opcode ∧ data = i.data := by
  unfold commandOf at h
  iterate 16
    obtain ⟨rfl, rfl⟩ | h := row_some h
    · exact ⟨rfl, rfl⟩
  cases h

theorem decode_command {cmd : Cmd} {i : Instr} (h : decode cmd = .command i) :
    opOf cmd = i.opcode ∧ dataOf cmd = i.data := by
  unfold decode at h
  split at h
  · obtain rfl := Decoded.command.inj h
    exact commandOf_some ‹_›
  · cases h

theorem decode_illegal {cmd : Cmd} {op : BitVec 8} (h : decode cmd = .illegal op) :
    opOf cmd = op ∧ commandOf op (dataOf cmd) = none := by
  unfold decode at h
  split at h
  · cases h
  · obtain rfl := Decoded.illegal.inj h
    exact ⟨rfl, ‹_›⟩

end Sys2Proof
end

