-- ==== Sys2Proof/Laws/Ops.lean ====
section
/-! SUPPORT. What each shared operation can do, said once; the meanings, the issue and the step as equations. -/

namespace Sys2Proof.Machine

section

variable {s t : State} {data : Word}

/-! ### The checks -/

theorem guarded_legal {i : Instr} {body : State → State} (h : i.data &&& i.reservedMask = 0#32) :
    guarded i body s = body s := if_pos h

theorem guarded_reserved {i : Instr} {body : State → State} (h : i.data &&& i.reservedMask ≠ 0#32) :
    guarded i body s = raise .reservedBits i.data s := if_neg h

theorem guarded_cases (i : Instr) (body : State → State) (s : State) :
    (i.data &&& i.reservedMask ≠ 0#32 ∧ guarded i body s = raise .reservedBits i.data s) ∨
      (i.data &&& i.reservedMask = 0#32 ∧ guarded i body s = body s) := by
  by_cases h : i.data &&& i.reservedMask = 0#32
  · exact .inr ⟨h, guarded_legal h⟩
  · exact .inl ⟨h, guarded_reserved h⟩

theorem requireKey_cases (body : State → State) (s : State) :
    (s.klen = 0 ∧ requireKey body s = raise .emptyPassphrase 0#32 s) ∨
      (s.klen ≠ 0 ∧ requireKey body s = body s) := by
  by_cases h : s.klen = 0
  · exact .inl ⟨h, if_pos h⟩
  · exact .inr ⟨h, if_neg h⟩

theorem withOperand_cases (operand : Except ErrorKind Index) (data : Word) (body : Index → State → State)
    (s : State) :
    (∃ e, operand = .error e ∧ withOperand operand data body s = raise e data s) ∨
      (∃ i, operand = .ok i ∧ withOperand operand data body s = body i s) := by
  cases operand with
  | error e => exact .inl ⟨e, rfl, rfl⟩
  | ok i => exact .inr ⟨i, rfl, rfl⟩

theorem appendKey_cases (data : Word) (i : Index) (s : State) :
    (s.klen = s.cfg.kmax ∧ appendKey data i s = raise .keyFull data s) ∨
      (s.klen ≠ s.cfg.kmax ∧
        appendKey data i s = { s with key := s.key.set s.klen i, klen := s.klen + 1, err := 0#4 }) := by
  by_cases h : s.klen = s.cfg.kmax
  · exact .inl ⟨h, if_pos h⟩
  · exact .inr ⟨h, if_neg h⟩

theorem cipherStep_eq (mix : Index → Index → Index) (result : Config → Index → Word) (m : Index) (s : State) :
    cipherStep mix result m s =
      { s with res := result s.cfg (mix m (keyEntry s s.kpos)), kpos := (s.kpos + 1) % s.klen, err := 0#4 } :=
  rfl

theorem requireKey_loaded {body : State → State} (h : s.klen ≠ 0) : requireKey body s = body s := if_neg h

theorem requireKey_empty {body : State → State} (h : s.klen = 0) :
    requireKey body s = raise .emptyPassphrase 0#32 s := if_pos h

@[simp] theorem withOperand_ok (i : Index) (data : Word) (body : Index → State → State) (s : State) :
    withOperand (.ok i) data body s = body i s := rfl

@[simp] theorem withOperand_error (e : ErrorKind) (data : Word) (body : Index → State → State) (s : State) :
    withOperand (.error e) data body s = raise e data s := rfl

theorem appendKey_full {i : Index} (h : s.klen = s.cfg.kmax) : appendKey data i s = raise .keyFull data s := if_pos h

theorem appendKey_room {i : Index} (h : s.klen ≠ s.cfg.kmax) :
    appendKey data i s = done { s with key := s.key.set s.klen i, klen := s.klen + 1 } := if_neg h

/-! ### Operands and the key buffer -/

theorem checkIdx_of_lt (h : (idxField data).toNat < 106) : checkIdx data = .ok (idxField data) := if_pos h

theorem checkIdx_of_ge (h : 106 ≤ (idxField data).toNat) : checkIdx data = .error .badIndex :=
  if_neg (Nat.not_lt.mpr h)

theorem checkSym_of_some {c : Config} {i : Index} (h : indexOf c (symField data) = some i) :
    checkSym c data = .ok i := by
  unfold checkSym; rw [h]

theorem checkSym_of_none {c : Config} (h : indexOf c (symField data) = none) :
    checkSym c data = .error .unsupportedCharacter := by
  unfold checkSym; rw [h]

theorem checkIdx_ok_iff {i : Index} :
    checkIdx data = .ok i ↔ idxField data = i ∧ i.toNat < symbolCount := by
  unfold checkIdx
  split
  · rename_i h
    constructor
    · intro e
      cases e
      exact ⟨rfl, h⟩
    · rintro ⟨rfl, -⟩
      rfl
  · rename_i h
    constructor
    · intro e
      cases e
    · rintro ⟨rfl, hi⟩
      exact absurd hi h

theorem checkIdx_error {e : ErrorKind} (h : checkIdx data = .error e) :
    e = .badIndex ∧ symbolCount ≤ (idxField data).toNat := by
  unfold checkIdx at h
  split at h
  · cases h
  · rename_i hn
    cases h
    exact ⟨rfl, Nat.le_of_not_lt hn⟩

theorem checkSym_ok_iff {c : Config} {i : Index} :
    checkSym c data = .ok i ↔ indexOf c (symField data) = some i := by
  unfold checkSym
  cases indexOf c (symField data) <;> simp

theorem checkSym_error {c : Config} {e : ErrorKind} (h : checkSym c data = .error e) :
    e = .unsupportedCharacter ∧ indexOf c (symField data) = none := by
  unfold checkSym at h
  cases hi : indexOf c (symField data) <;> rw [hi] at h <;> cases h
  exact ⟨rfl, rfl⟩

/-- An index that `indexOf` finds is below 106, and its symbol is the one looked for. -/
theorem indexOf_some {c : Config} {sym : Sym} {i : Index} (h : indexOf c sym = some i) :
    ∃ hi : i.toNat < 106, c.alphabet[i.toNat]'hi = sym := by
  unfold indexOf at h
  obtain ⟨n, hn, rfl⟩ := Option.map_eq_some_iff.mp h
  obtain ⟨hlt, heq, -⟩ := List.findIdx?_eq_some_iff_getElem.mp hn
  have h106 : n < 106 := by simpa using hlt
  have hmod : (BitVec.ofNat 7 n).toNat = n := by simp; omega
  refine ⟨by omega, ?_⟩
  simp only [hmod]
  simpa using heq

theorem indexOf_lt {c : Config} {sym : Sym} {i : Index} (h : indexOf c sym = some i) : i.toNat < 106 :=
  (indexOf_some h).1

theorem indexOf_none_iff {c : Config} {sym : Sym} : indexOf c sym = none ↔ sym ∉ c.alphabet.toList := by
  unfold indexOf
  rw [Option.map_eq_none_iff, List.findIdx?_eq_none_iff]
  constructor
  · intro h hm
    simpa using h sym hm
  · intro h x hx
    by_contra hne
    exact h (by simpa [show x = sym by simpa using hne] using hx)

theorem checkIdx_lt {i : Index} (h : checkIdx data = .ok i) : i.toNat < 106 := (checkIdx_ok_iff.mp h).2

theorem checkSym_lt {c : Config} {i : Index} (h : checkSym c data = .ok i) : i.toNat < 106 :=
  indexOf_lt (checkSym_ok_iff.mp h)

theorem symbolAt_of_lt {c : Config} {i : Index} (h : i.toNat < 106) : symbolAt c i = c.alphabet[i.toNat] :=
  dif_pos h

theorem keyEntry_of_lt {i : Nat} (h : i < s.klen) (hl : i < s.key.length) : keyEntry s i = s.key[i] := by
  unfold keyEntry
  rw [if_pos h, List.getD_eq_getElem _ _ hl]

/-! ### The read port, address by address (R31) -/

@[simp] theorem readPort_status (s : State) : readPort 0#3 s = statusWord s := rfl
@[simp] theorem readPort_res (s : State) : readPort 1#3 s = s.res := rfl
@[simp] theorem readPort_einfo (s : State) : readPort 2#3 s = s.einfo := rfl
@[simp] theorem readPort_crc (s : State) : readPort 3#3 s = finishedCrc s := rfl
@[simp] theorem readPort_crcraw (s : State) : readPort 4#3 s = s.crcState := rfl
@[simp] theorem readPort_klen (s : State) : readPort 5#3 s = zext16 s.klen := rfl
@[simp] theorem readPort_kpos (s : State) : readPort 6#3 s = zext16 s.kpos := rfl
@[simp] theorem readPort_param (s : State) : readPort 7#3 s = paramWord s.cfg := rfl

/-- The host's part of the state is not read by any address. -/
theorem readPort_host (a : PortAddr) (s : State) (rest : List Transaction) :
    readPort a { s with host := rest } = readPort a s := rfl

/-! ### The meanings as equations, the issue and the step -/

/-- Every meaning answers a next state; this names it. -/
def afterCommand (i : Instr) (s : State) : State :=
  match exec i s with
  | .next t => t
  | _ => s

theorem exec_eq_next (i : Instr) (s : State) : exec i s = .next (afterCommand i s) := by
  cases i <;> rfl

theorem execAll_nil (s : State) : execAll [] s = .next s := rfl

theorem execAll_cons (i : Instr) (rest : List Instr) (s : State) :
    execAll (i :: rest) s = execAll rest (afterCommand i s) := by
  rw [execAll, exec_eq_next]

theorem execAll_append (front back : List Instr) (s : State) :
    ∃ t, execAll front s = .next t ∧ execAll (front ++ back) s = execAll back t := by
  induction front generalizing s with
  | nil => exact ⟨s, rfl, rfl⟩
  | cons i front ih =>
    obtain ⟨t, hf, hb⟩ := ih (afterCommand i s)
    exact ⟨t, (execAll_cons ..).trans hf, (execAll_cons ..).trans hb⟩

theorem issue_command {cmd : Cmd} {i : Instr} (h : decode cmd = .command i) : issue cmd s = exec i s := by
  unfold issue; rw [h]

theorem issue_illegal {cmd : Cmd} {op : BitVec 8} (h : decode cmd = .illegal op) :
    issue cmd s = .next (raise .illegalOpcode (op.setWidth 32) s) := by
  unfold issue; rw [h]; rfl

/-- Everything an issued word can do. -/
theorem issue_cases {cmd : Cmd} (h : issue cmd s = .next t) :
    (∃ i, decode cmd = .command i ∧ exec i s = .next t) ∨
      (∃ op, decode cmd = .illegal op ∧ t = raise .illegalOpcode (op.setWidth 32) s) := by
  cases hd : decode cmd with
  | command i => exact .inl ⟨i, rfl, issue_command hd ▸ h⟩
  | illegal op => exact .inr ⟨op, rfl, by rw [issue_illegal hd] at h; cases h; rfl⟩

/-- Everything a step can do. -/
theorem step_cases (h : step s = .next t) :
    (s.host = [] ∧ t = s) ∨
      (∃ cmd rest, s.host = .issue cmd :: rest ∧ issue cmd { s with host := rest } = .next t) ∨
      (∃ a rest, s.host = .read a :: rest ∧ t = observe a { s with host := rest }) ∨
      (∃ rest, s.host = .reset :: rest ∧ t = resetBlock { s with host := rest }) := by
  unfold step at h
  split at h
  · cases h; exact .inl ⟨‹_›, rfl⟩
  · exact .inr (.inl ⟨_, _, ‹_›, h⟩)
  · cases h; exact .inr (.inr (.inl ⟨_, _, ‹_›, rfl⟩))
  · cases h; exact .inr (.inr (.inr ⟨_, ‹_›, rfl⟩))

end

/-- What a command can do to a state: it raises, or it completes with the updates its rule names. One constructor per
shape, the checks passed on the way to it included. -/
inductive Effect (s : State) : Instr → State → Prop where
  | reserved {i : Instr} : i.data &&& i.reservedMask ≠ 0#32 → Effect s i (raise .reservedBits i.data s)
  | nop {data} : data &&& 0xFFFFFFFF#32 = 0#32 → Effect s (.nop data) (done s)
  | statClr {data} : data &&& 0xFFFFFFFF#32 = 0#32 →
      Effect s (.statClr data) (done { s with matchFlag := false, sticky := false, einfo := 0#32 })
  | crcInit {data} : data &&& 0xFFFFFFFF#32 = 0#32 →
      Effect s (.crcInit data) (done { s with crcState := 0xFFFFFFFF#32 })
  | crcB {data} : data &&& 0xFFFFFF00#32 = 0#32 →
      Effect s (.crcB data) (done { s with crcState := crcStep8 s.crcState (byteField data) })
  | crcW {data} : Effect s (.crcW data) (done { s with crcState := crcRaw s.crcState (wordBytes data) })
  | crcMatch {data} : finishedCrc s = data → Effect s (.crcChk data) (done { s with matchFlag := true })
  | crcMismatch {data} : finishedCrc s ≠ data →
      Effect s (.crcChk data) (raise .checksumMismatch data { s with matchFlag := false })
  | keyClr {data} : data &&& 0xFFFFFFFF#32 = 0#32 → Effect s (.keyClr data) (done (clearKey s))
  | keyRst {data} : data &&& 0xFFFFFFFF#32 = 0#32 → Effect s (.keyRst data) (done { s with kpos := 0 })
  /-- ENC, DEC, ENCS, DECS without a passphrase. -/
  | noKey {i} : isMixing i = true → i.data &&& i.reservedMask = 0#32 → s.klen = 0 →
      Effect s i (raise .emptyPassphrase 0#32 s)
  /-- An index operand of 106 or more. -/
  | badIndex {i} : i.reservedMask = 0xFFFFFF80#32 → i.data &&& i.reservedMask = 0#32 →
      106 ≤ (idxField i.data).toNat → (isMixing i = true → s.klen ≠ 0) → Effect s i (raise .badIndex i.data s)
  /-- A symbol operand outside the alphabet. -/
  | unsupported {i} : i.reservedMask = 0xFFE00000#32 → i.data &&& i.reservedMask = 0#32 →
      indexOf s.cfg (symField i.data) = none → (isMixing i = true → s.klen ≠ 0) →
      Effect s i (raise .unsupportedCharacter i.data s)
  | keyFullIndex {data} : data &&& 0xFFFFFF80#32 = 0#32 → checkIdx data = .ok (idxField data) →
      s.klen = s.cfg.kmax → Effect s (.keyPush data) (raise .keyFull data s)
  | keyFullSymbol {data j} : data &&& 0xFFE00000#32 = 0#32 → indexOf s.cfg (symField data) = some j →
      s.klen = s.cfg.kmax → Effect s (.keyPushs data) (raise .keyFull data s)
  | keyPush {data} : data &&& 0xFFFFFF80#32 = 0#32 → (idxField data).toNat < 106 → s.klen ≠ s.cfg.kmax →
      Effect s (.keyPush data) (done { s with key := s.key.set s.klen (idxField data), klen := s.klen + 1 })
  | keyPushs {data j} : data &&& 0xFFE00000#32 = 0#32 → indexOf s.cfg (symField data) = some j →
      s.klen ≠ s.cfg.kmax →
      Effect s (.keyPushs data) (done { s with key := s.key.set s.klen j, klen := s.klen + 1 })
  | enc {data} : data &&& 0xFFFFFF80#32 = 0#32 → s.klen ≠ 0 → (idxField data).toNat < 106 →
      Effect s (.enc data) (cipherStep encIdx indexResult (idxField data) s)
  | dec {data} : data &&& 0xFFFFFF80#32 = 0#32 → s.klen ≠ 0 → (idxField data).toNat < 106 →
      Effect s (.dec data) (cipherStep decIdx indexResult (idxField data) s)
  | encs {data j} : data &&& 0xFFE00000#32 = 0#32 → s.klen ≠ 0 → indexOf s.cfg (symField data) = some j →
      Effect s (.encs data) (cipherStep encIdx symbolResult j s)
  | decs {data j} : data &&& 0xFFE00000#32 = 0#32 → s.klen ≠ 0 → indexOf s.cfg (symField data) = some j →
      Effect s (.decs data) (cipherStep decIdx symbolResult j s)
  | symIdx {data j} : data &&& 0xFFE00000#32 = 0#32 → indexOf s.cfg (symField data) = some j →
      Effect s (.symIdx data) (done (setResult (j.setWidth 32) s))
  | idxSym {data} : data &&& 0xFFFFFF80#32 = 0#32 → (idxField data).toNat < 106 →
      Effect s (.idxSym data) (done (setResult ((symbolAt s.cfg (idxField data)).setWidth 32) s))

/-- Everything a command can do, said once: the inversion of `exec` that later proofs cite instead of unfolding it. -/
theorem exec_effect {i : Instr} {s t : State} (h : exec i s = .next t) : Effect s i t := by
  have hz : ∀ w : Word, w &&& 0x00000000#32 = 0#32 := fun w => by simp
  cases i with
  | nop data =>
    cases h
    obtain ⟨h, e⟩ | ⟨h, e⟩ := guarded_cases (.nop data) done s <;> rw [e]
    · exact .reserved h
    · exact .nop h
  | statClr data =>
    cases h
    obtain ⟨h, e⟩ | ⟨h, e⟩ := guarded_cases (.statClr data) _ s <;> rw [e]
    · exact .reserved h
    · exact .statClr h
  | crcInit data =>
    cases h
    obtain ⟨h, e⟩ | ⟨h, e⟩ := guarded_cases (.crcInit data) _ s <;> rw [e]
    · exact .reserved h
    · exact .crcInit h
  | crcB data =>
    cases h
    obtain ⟨h, e⟩ | ⟨h, e⟩ := guarded_cases (.crcB data) _ s <;> rw [e]
    · exact .reserved h
    · exact .crcB h
  | crcW data =>
    cases h
    rw [guarded_legal (i := .crcW data) (hz data)]
    exact .crcW
  | crcChk data =>
    cases h
    rw [guarded_legal (i := .crcChk data) (hz data)]
    by_cases hm : finishedCrc s = data
    · rw [if_pos hm]; exact .crcMatch hm
    · rw [if_neg hm]; exact .crcMismatch hm
  | keyClr data =>
    cases h
    obtain ⟨h, e⟩ | ⟨h, e⟩ := guarded_cases (.keyClr data) _ s <;> rw [e]
    · exact .reserved h
    · exact .keyClr h
  | keyRst data =>
    cases h
    obtain ⟨h, e⟩ | ⟨h, e⟩ := guarded_cases (.keyRst data) _ s <;> rw [e]
    · exact .reserved h
    · exact .keyRst h
  | keyPush data =>
    cases h
    obtain ⟨h, e⟩ | ⟨h, e⟩ := guarded_cases (.keyPush data) _ s <;> rw [e]
    · exact .reserved h
    obtain ⟨k, hk, e⟩ | ⟨k, hk, e⟩ := withOperand_cases (checkIdx data) data (appendKey data) s <;> rw [e]
    · obtain ⟨rfl, hb⟩ := checkIdx_error hk
      exact .badIndex rfl h hb (fun hm => nomatch hm)
    obtain ⟨rfl, hk'⟩ := checkIdx_ok_iff.mp hk
    obtain ⟨hf, e⟩ | ⟨hf, e⟩ := appendKey_cases data (idxField data) s <;> rw [e]
    · exact .keyFullIndex h hk hf
    · exact .keyPush h hk' hf
  | keyPushs data =>
    cases h
    obtain ⟨h, e⟩ | ⟨h, e⟩ := guarded_cases (.keyPushs data) _ s <;> rw [e]
    · exact .reserved h
    obtain ⟨k, hk, e⟩ | ⟨k, hk, e⟩ := withOperand_cases (checkSym s.cfg data) data (appendKey data) s <;> rw [e]
    · obtain ⟨rfl, hb⟩ := checkSym_error hk
      exact .unsupported rfl h hb (fun hm => nomatch hm)
    obtain ⟨hf, e⟩ | ⟨hf, e⟩ := appendKey_cases data k s <;> rw [e]
    · exact .keyFullSymbol h (checkSym_ok_iff.mp hk) hf
    · exact .keyPushs h (checkSym_ok_iff.mp hk) hf
  | enc data =>
    cases h
    obtain ⟨h, e⟩ | ⟨h, e⟩ := guarded_cases (.enc data) _ s <;> rw [e]
    · exact .reserved h
    obtain ⟨hl, e⟩ | ⟨hl, e⟩ := requireKey_cases _ s <;> rw [e]
    · exact .noKey rfl h hl
    obtain ⟨k, hk, e⟩ | ⟨k, hk, e⟩ := withOperand_cases (checkIdx data) data _ s <;> rw [e]
    · obtain ⟨rfl, hb⟩ := checkIdx_error hk
      exact .badIndex rfl h hb (fun _ => hl)
    obtain ⟨rfl, hk'⟩ := checkIdx_ok_iff.mp hk
    exact .enc h hl hk'
  | dec data =>
    cases h
    obtain ⟨h, e⟩ | ⟨h, e⟩ := guarded_cases (.dec data) _ s <;> rw [e]
    · exact .reserved h
    obtain ⟨hl, e⟩ | ⟨hl, e⟩ := requireKey_cases _ s <;> rw [e]
    · exact .noKey rfl h hl
    obtain ⟨k, hk, e⟩ | ⟨k, hk, e⟩ := withOperand_cases (checkIdx data) data _ s <;> rw [e]
    · obtain ⟨rfl, hb⟩ := checkIdx_error hk
      exact .badIndex rfl h hb (fun _ => hl)
    obtain ⟨rfl, hk'⟩ := checkIdx_ok_iff.mp hk
    exact .dec h hl hk'
  | encs data =>
    cases h
    obtain ⟨h, e⟩ | ⟨h, e⟩ := guarded_cases (.encs data) _ s <;> rw [e]
    · exact .reserved h
    obtain ⟨hl, e⟩ | ⟨hl, e⟩ := requireKey_cases _ s <;> rw [e]
    · exact .noKey rfl h hl
    obtain ⟨k, hk, e⟩ | ⟨k, hk, e⟩ := withOperand_cases (checkSym s.cfg data) data _ s <;> rw [e]
    · obtain ⟨rfl, hb⟩ := checkSym_error hk
      exact .unsupported rfl h hb (fun _ => hl)
    exact .encs h hl (checkSym_ok_iff.mp hk)
  | decs data =>
    cases h
    obtain ⟨h, e⟩ | ⟨h, e⟩ := guarded_cases (.decs data) _ s <;> rw [e]
    · exact .reserved h
    obtain ⟨hl, e⟩ | ⟨hl, e⟩ := requireKey_cases _ s <;> rw [e]
    · exact .noKey rfl h hl
    obtain ⟨k, hk, e⟩ | ⟨k, hk, e⟩ := withOperand_cases (checkSym s.cfg data) data _ s <;> rw [e]
    · obtain ⟨rfl, hb⟩ := checkSym_error hk
      exact .unsupported rfl h hb (fun _ => hl)
    exact .decs h hl (checkSym_ok_iff.mp hk)
  | symIdx data =>
    cases h
    obtain ⟨h, e⟩ | ⟨h, e⟩ := guarded_cases (.symIdx data) _ s <;> rw [e]
    · exact .reserved h
    obtain ⟨k, hk, e⟩ | ⟨k, hk, e⟩ := withOperand_cases (checkSym s.cfg data) data _ s <;> rw [e]
    · obtain ⟨rfl, hb⟩ := checkSym_error hk
      exact .unsupported rfl h hb (fun hm => nomatch hm)
    exact .symIdx h (checkSym_ok_iff.mp hk)
  | idxSym data =>
    cases h
    obtain ⟨h, e⟩ | ⟨h, e⟩ := guarded_cases (.idxSym data) _ s <;> rw [e]
    · exact .reserved h
    obtain ⟨k, hk, e⟩ | ⟨k, hk, e⟩ := withOperand_cases (checkIdx data) data _ s <;> rw [e]
    · obtain ⟨rfl, hb⟩ := checkIdx_error hk
      exact .badIndex rfl h hb (fun hm => nomatch hm)
    obtain ⟨rfl, hk'⟩ := checkIdx_ok_iff.mp hk
    exact .idxSym h hk'

end Sys2Proof.Machine
end

