-- ==== Sys2Proof/Tests/Slice0.lean ====
section
/-! SUPPORT. The model's own tests. Expected values are the spec's: 95_test_vectors.md and the examples of each rule. The
last part shows, for each statement with hypotheses, a state and operands that meet them. -/

namespace Sys2Proof.Tests

open Sys2Proof Sys2Proof.Machine

/-- One field of the next state, if there is one. -/
def field {α : Type} (f : State → α) : Result → Option α
  | .next t => some (f t)
  | _ => none

/-- A block with `n` key entries and the example alphabet, after reset. -/
def block (n : Nat) : State := State.resetWith { kmax := n, alphabet := exampleAlphabet }

/-- 95_test_vectors.md, key and cipher commands: klen = 3, KEY = [15, 0, 18]. -/
def keyed : State := { block 4 with key := [15#7, 0#7, 18#7, 0#7], klen := 3 }

/-- ERR, STICKY and EINFO of a state. -/
def report (s : State) : BitVec 4 × Bool × Word := (s.err, s.sticky, s.einfo)

/-! ### WellFormed refuses a set reserved bit, for each mask of R58 -/

theorem test_wf_refuses_nop_bit : (Instr.nop 1#32).wellFormed = false := by decide
theorem test_wf_refuses_crcB_bit8 : (Instr.crcB 0x152#32).wellFormed = false := by decide
theorem test_wf_refuses_index_bit7 : (Instr.enc 0x80#32).wellFormed = false := by decide
theorem test_wf_refuses_symbol_bit21 : (Instr.symIdx 0x200000#32).wellFormed = false := by decide
theorem test_wf_accepts_word : (Instr.crcW 0xFFFFFFFF#32).wellFormed = true := by decide

/-! ### Decoding: each opcode of R57, words written from R55 (op in bits 39:32, data in bits 31:0) -/

theorem test_decode_control : decode 0x0000000000#40 = .command (.nop 0#32) ∧
    decode 0xF000000000#40 = .command (.statClr 0#32) := by decide
theorem test_decode_crc : decode 0x0100000000#40 = .command (.crcInit 0#32) ∧
    decode 0b0000001000000000000000000000000001010010#40 = .command (.crcB 0x52#32) ∧
    decode 0x0352755374#40 = .command (.crcW 0x52755374#32) ∧
    decode 0x04ABD1D84E#40 = .command (.crcChk 0xABD1D84E#32) := by decide
theorem test_decode_key : decode 0x1000000000#40 = .command (.keyClr 0#32) ∧
    decode 0b0001000100000000000000000000000001101010#40 = .command (.keyPush 0x6A#32) ∧
    decode 0x1200000070#40 = .command (.keyPushs 0x70#32) ∧
    decode 0x1300000000#40 = .command (.keyRst 0#32) := by decide
theorem test_decode_cipher : decode 0b0001010000000000000000000000000001100100#40 = .command (.enc 100#32) ∧
    decode 0x1500000009#40 = .command (.dec 9#32) ∧ decode 0x1600000048#40 = .command (.encs 0x48#32) ∧
    decode 0x1700000048#40 = .command (.decs 0x48#32) := by decide
theorem test_decode_symbols : decode 0x18001FFFFF#40 = .command (.symIdx 0x1FFFFF#32) ∧
    decode 0x1900000069#40 = .command (.idxSym 105#32) := by decide
theorem test_decode_illegal : decode 0x05DEADBEEF#40 = .illegal 0x05#8 ∧ decode 0x1A00000000#40 = .illegal 0x1A#8 ∧
    decode 0xF100000000#40 = .illegal 0xF1#8 := by decide
theorem test_decode_table_word : decodeTableWord 40 0x1400000064 = some (.enc 100#32) ∧
    decodeTableWord 40 0xFFFFFFFFFF = none := by decide
theorem test_encode : encode (.crcB 0x52#32) = 0x0200000052#40 := by decide

/-! ### The read port: 95_test_vectors.md, "Read port from reset" -/

theorem test_reset_status_and_crc : readPort 0#3 (block 256) = 0#32 ∧ readPort 3#3 (block 256) = 0#32 := by decide
theorem test_reset_param : readPort 7#3 (block 256) = 0x006A0100#32 := by decide
theorem test_status_layout :
    readPort 0#3 { block 2 with err := 3#4, matchFlag := true, sticky := true } = 0x33#32 := by decide

/-! ### CRC unit: vectors C-2 to C-14, L1-1, K-1, K-2 and the table entries of R79 -/

theorem test_crc_check_value :
    crc32 [0x31#8, 0x32#8, 0x33#8, 0x34#8, 0x35#8, 0x36#8, 0x37#8, 0x38#8, 0x39#8] = 0xCBF43926#32 := by decide +kernel
theorem test_crc_table : crcTable 1#8 = 0x77073096#32 ∧ crcTable 0xFF#8 = 0x2D02EF8D#32 := by decide +kernel

/-- L1-1: "RuSt" and the 42 bytes of the document's scenario 1. -/
theorem test_crc_scenario_1 :
    crc32 ("RuStThis is where your secret message will be!".toList.map fun c => BitVec.ofNat 8 c.toNat) =
      0xABD1D84E#32 := by decide +kernel

theorem test_crcInit :
    field (·.crcState) (issue 0x0100000000#40 { block 2 with crcState := 0x542E27B1#32 }) = some 0xFFFFFFFF#32 := by
  decide
theorem test_crcInit_reserved : field report (issue 0x0100000001#40 (block 2)) = some (6#4, true, 1#32) := by decide
theorem test_crcB : field (·.crcState) (issue 0x0200000061#40 (block 2)) = some 0x174841BC#32 := by decide +kernel
theorem test_crcB_reserved :
    field (fun t => (t.crcState, report t)) (issue 0x0200000152#40 (block 2)) =
      some (0xFFFFFFFF#32, 6#4, true, 0x152#32) := by decide
theorem test_crcW : field (·.crcState) (issue 0x0352755374#40 (block 2)) = some 0x2B7BF6C3#32 := by decide +kernel
theorem test_crcW_ones : field (·.crcState) (issue 0x03FFFFFFFF#40 (block 2)) = some 0#32 := by decide +kernel
theorem test_crcChk_match :
    field (fun t => (t.matchFlag, t.err)) (issue 0x04AE426082#40 { block 2 with crcState := 0x51BD9F7D#32 }) =
      some (true, 0#4) := by decide
theorem test_crcChk_mismatch :
    field (fun t => (t.matchFlag, report t))
        (issue 0x04826042AE#40 { block 2 with crcState := 0x51BD9F7D#32, matchFlag := true }) =
      some (false, 3#4, true, 0x826042AE#32) := by decide

/-! ### ALPHABET: the classes of R6 -/

theorem test_other_symbols_have_a_class : isAlphabetSymbol 0x00#21 = false ∧ isAlphabetSymbol 0x4E2D#21 = false ∧
    isAlphabetSymbol 0x3B1#21 = false ∧ isPunctuation 0x20#21 = true ∧ isPunctuation 0x40#21 = true ∧
    isPunctuation 0x41#21 = false ∧ isAccentedLetter 0xE9#21 = true ∧ isAccentedLetter 0x65#21 = false := by decide

/-- An alphabet with U+0000 in the place of one of the other symbols is refused. -/
theorem test_alphabet_refuses_control : alphabetLegal (exampleAlphabet.set 70 0#21) = false := by decide +kernel

/-! ### Cipher unit: vectors A-1 to A-10, Q-1 to Q-6 and the key vectors -/

theorem test_encIdx : encIdx 105#7 1#7 = 0#7 ∧ encIdx 105#7 105#7 = 104#7 ∧ encIdx 50#7 60#7 = 4#7 ∧
    encIdx 52#7 53#7 = 105#7 := by decide
theorem test_decIdx : decIdx 0#7 1#7 = 105#7 ∧ decIdx 104#7 105#7 = 105#7 ∧ decIdx 50#7 60#7 = 96#7 ∧
    decIdx 1#7 105#7 = 2#7 := by decide
theorem test_keyClr :
    field (fun t => (t.klen, t.kpos)) (issue 0x1000000000#40 { keyed with kpos := 2 }) = some (0, 0) := by decide
theorem test_keyPush :
    field (fun t => (keyEntry t 0, t.klen)) (issue 0x110000000F#40 (block 2)) = some (15#7, 1) := by decide
theorem test_keyPush_errors : field report (issue 0x110000006A#40 (block 2)) = some (4#4, true, 0x6A#32) ∧
    field report (issue 0x1100000003#40 { block 2 with klen := 2 }) = some (5#4, true, 3#32) := by decide
theorem test_keyPushs :
    field (fun t => (keyEntry t 0, t.klen)) (issue 0x1200000070#40 (block 2)) = some (15#7, 1) := by decide
theorem test_keyPushs_unsupported_before_full :
    field report (issue 0x12001FFFFF#40 { block 2 with klen := 2 }) = some (2#4, true, 0x1FFFFF#32) := by decide
theorem test_keyRst : field (·.kpos) (issue 0x1300000000#40 { keyed with kpos := 2 }) = some 0 := by decide
theorem test_enc : field (fun t => (t.res, t.kpos)) (issue 0x1400000064#40 keyed) = some (9#32, 1) := by decide
theorem test_enc_wraps_position :
    field (fun t => (t.res, t.kpos)) (issue 0x140000005A#40 { keyed with kpos := 2 }) = some (2#32, 0) := by decide
theorem test_enc_empty_before_index : field report (issue 0x140000006E#40 (block 2)) = some (1#4, true, 0#32) := by
  decide
theorem test_dec : field (fun t => (t.res, t.kpos)) (issue 0x1500000009#40 keyed) = some (100#32, 1) := by decide
theorem test_dec_bad_index :
    field (fun t => (t.kpos, report t)) (issue 0x150000006A#40 keyed) = some (0, 4#4, true, 0x6A#32) := by decide

/-- Index 15 is the example alphabet's 'p', index 33 its 'H' and 48 its 'W': R93's example in that alphabet. -/
theorem test_encs : field (fun t => (t.res, t.kpos)) (issue 0x1600000048#40 keyed) = some (0x57#32, 1) := by decide
theorem test_encs_unsupported :
    field (fun t => (t.kpos, report t)) (issue 0x16001FFFFF#40 keyed) = some (0, 2#4, true, 0x1FFFFF#32) := by decide
theorem test_decs : field (fun t => (t.res, t.kpos)) (issue 0x1700000057#40 keyed) = some (0x48#32, 1) := by decide
theorem test_symIdx_unsupported :
    field report (issue 0x18001FFFFF#40 (block 2)) = some (2#4, true, 0x1FFFFF#32) := by decide
theorem test_symIdx_reserved : field report (issue 0x1800200000#40 (block 2)) = some (6#4, true, 0x200000#32) := by
  decide
theorem test_idxSym_then_symIdx :
    field (·.res) (issue 0x1900000069#40 (block 2)) = some (symbolResult (block 2).cfg 105#7) ∧
      indexOf (block 2).cfg (symbolAt (block 2).cfg 105#7) = some 105#7 := by decide
theorem test_idxSym_bad_index : field report (issue 0x190000006A#40 (block 2)) = some (4#4, true, 0x6A#32) := by decide

/-! ### Control and errors: vectors X-1 to X-8, program P3 -/

theorem test_nop :
    field report (issue 0x0000000000#40 { block 2 with err := 3#4, sticky := true, einfo := 5#32 }) =
      some (0#4, true, 5#32) := by decide
theorem test_nop_reserved : field report (issue 0x0000000001#40 (block 2)) = some (6#4, true, 1#32) := by decide
theorem test_statClr :
    field (fun t => (t.matchFlag, report t))
        (issue 0xF000000000#40 { block 2 with err := 2#4, matchFlag := true, sticky := true, einfo := 0x7E#32 }) =
      some (false, 0#4, false, 0#32) := by decide
theorem test_statClr_reserved : field report (issue 0xF000000001#40 (block 2)) = some (6#4, true, 1#32) := by decide
theorem test_illegal : field report (issue 0x05DEADBEEF#40 (block 2)) = some (7#4, true, 5#32) ∧
    field report (issue 0xFFFFFFFFFF#40 (block 2)) = some (7#4, true, 0xFF#32) := by decide

/-! ### The step, the host and the assembler -/

theorem test_step_from_reset :
    field (fun t => (t.res, report t, t.host)) (step (State.reset.withFetchWord 40 0x1400000003)) =
      some (0#32, (1#4, true, 0#32), []) := by decide
theorem test_step_read :
    field (·.observed) (step { keyed with host := [.read 5#3] }) = some [3#32] := by decide
theorem test_step_reset :
    field (fun t => (t.klen, t.crcState)) (step { keyed with crcState := 0#32, host := [.reset] }) =
      some (0, 0xFFFFFFFF#32) := by decide
theorem test_assemble_examples : assembleLine "CRC.B 0x52" = some 0x0200000052#40 ∧
    assembleLine "KEY.PUSHS 'p'" = some 0x1200000070#40 ∧
    assembleLine "CRC.W 0x52755374 ; RuSt" = some 0x0352755374#40 := by decide
theorem test_assemble_refuses : assembleLine "ENC 128" = none ∧ assembleLine "NOP 0" = none ∧
    assembleLine "KEY.PUSH 'p'" = none ∧ assembleLine "MUL" = none := by decide
/-- R64, R65: whatever the host does with texts that are not ASCII. -/
theorem test_crc_str_is_crc_bytes (otherText : List Char → List Byte) :
    crcStr otherText "RuSta".toList = [.crcW 0x52755374#32, .crcB 0x61#32] := by rfl

/-! ### Witnesses: states and operands that meet the hypotheses of the statements -/

theorem block_legal (n : Nat) (h : 1 ≤ n ∧ n ≤ 65535) : (block n).cfg.legal = true := by
  have e : (block n).cfg.legal = (decide (1 ≤ n) && decide (n ≤ 65535) && alphabetLegal exampleAlphabet) := rfl
  rw [e, exampleAlphabet_legal]
  simp [h]

/-- `s.Inv`: a keyed block mid-message, as the statements from legal states need. -/
theorem witness_inv : keyed.Inv where
  cfg_legal := block_legal 4 (by decide)
  key_length := by decide
  klen_le := by decide
  key_position := by decide
  key_entries := by decide
  err_le := by decide
  err_sticky := by decide
  einfo_sticky := by decide
  res_lt := by decide

/-- The full buffer, the largest legal KMAX bound and the last position: the boundary of `s.Inv`. -/
theorem witness_inv_full : State.Inv { block 1 with key := [105#7], klen := 1, err := 7#4, sticky := true } where
  cfg_legal := block_legal 1 (by decide)
  key_length := by decide
  klen_le := by decide
  key_position := by decide
  key_entries := by decide
  err_le := by decide
  err_sticky := by decide
  einfo_sticky := by decide
  res_lt := by decide

theorem witness_legal_config : (block 65535).cfg.legal = true := block_legal 65535 (by decide)

theorem witness_ReservedBitsRaise :
    (Instr.crcB 0x100#32).data &&& reservedMaskOf (Instr.crcB 0x100#32).opcode ≠ 0#32 := by decide

theorem witness_IllegalOpcodeRaises :
    (IllegalOpcode 0x05#8 ∧ IllegalOpcode 0x0F#8 ∧ IllegalOpcode 0x1A#8 ∧ IllegalOpcode 0xEF#8 ∧ IllegalOpcode 0xF1#8 ∧
      IllegalOpcode 0xFF#8) ∧
    ({ block 2 with host := [.issue (0x05#8 ++ 1#32)] } : State).host = .issue (0x05#8 ++ 1#32) :: [] := by
  unfold IllegalOpcode
  decide

theorem witness_StepRunsIssuedCommand :
    ((block 2).withFetchWord 40 0).host = .issue 0x0000000000#40 :: [] ∧
      decode 0x0000000000#40 = .command (.nop 0#32) := by decide

theorem witness_BlockWaitsForHost : (block 2).host = [] := by decide

theorem witness_ReadHasNoSideEffect : ({ block 2 with host := [.read 7#3] } : State).host = .read 7#3 :: [] := by decide

theorem witness_ResetEventSetsRegisters : ({ block 2 with host := [.reset] } : State).host = .reset :: [] := by decide

/-- One word for each error code, the boundary operands of the index and symbol checks among them. -/
theorem witness_FirstErrorIsAllThatFails :
    firstError 0x1400000001#40 (block 2) = 1#4 ∧ firstError 0x1800200000#40 (block 2) = 6#4 ∧
      firstError 0x18001FFFFF#40 (block 2) = 2#4 ∧ firstError 0x0400000001#40 (block 2) = 3#4 ∧
      firstError 0x190000006A#40 (block 2) = 4#4 ∧ firstError 0x1100000069#40 { block 2 with klen := 2 } = 5#4 ∧
      firstError 0x0500000000#40 (block 2) = 7#4 := by decide +kernel

theorem witness_FailingCommandRepeats :
    field (·.err) (issue 0x0400000001#40 (block 2)) = some 3#4 := by decide

theorem witness_SuccessKeepsStickyAndPayload :
    firstError 0x1900000069#40 (block 2) = 0#4 ∧ firstError 0x0000000000#40 (block 2) = 0#4 ∧
      decode 0x0000000000#40 = .command (.nop 0#32) := by decide +kernel

theorem witness_StickyRecordsFailures : ∀ i ∈ [Instr.nop 1#32, Instr.nop 0#32], ∀ data, i ≠ .statClr data := by simp

theorem witness_StepKeepsLegalState :
    keyed.Inv ∧ field (·.klen) (step keyed) = some 3 := ⟨witness_inv, by decide⟩

/-- Each register has a command that changes it. -/
theorem witness_RegistersChangeOnlyByTheirCommands :
    field (decide <| ·.crcState ≠ keyed.crcState) (exec (.crcB 0#32) keyed) = some true ∧
    field (decide <| ·.key ≠ keyed.key) (exec (.keyPush 7#32) keyed) = some true ∧
    field (decide <| ·.klen ≠ keyed.klen) (exec (.keyClr 0#32) keyed) = some true ∧
    field (decide <| ·.kpos ≠ keyed.kpos) (exec (.enc 1#32) keyed) = some true ∧
    field (decide <| ·.res ≠ keyed.res) (exec (.enc 1#32) keyed) = some true ∧
    field (decide <| ·.matchFlag ≠ keyed.matchFlag) (exec (.crcChk 0#32) keyed) = some true ∧
    field (·.sticky) (exec (.statClr 0#32) { keyed with sticky := true }) = some false := by decide

theorem witness_UnitsAreIndependent : isCrcCommand (.crcW 0#32) = true ∧ isCipherCommand (.encs 0#32) = true := by decide

theorem witness_KeyTailIsUnobservable :
    SameButKeyTail keyed { keyed with key := [15#7, 0#7, 18#7, 99#7], keyEpoch := 5 } := by
  constructor <;> decide

theorem witness_CrcFollowsFedBytes :
    ∀ i ∈ [Instr.crcB 1#32, Instr.crcB 0x100#32, Instr.crcW 2#32, Instr.enc 3#32], ∀ data, i ≠ .crcInit data := by simp

theorem witness_InitThenFeedGivesChecksum :
    ∀ i ∈ [Instr.crcB 0x61#32, Instr.crcW 2#32], (∃ b : Byte, i = .crcB (b.setWidth 32)) ∨ ∃ w, i = .crcW w := by
  intro i hi
  rcases List.mem_pair.mp hi with rfl | rfl
  · exact .inl ⟨0x61#8, rfl⟩
  · exact .inr ⟨2#32, rfl⟩

theorem witness_SingleBitChangeIsDetected :
    ([1#8, 2#8] : List Byte).length = ([3#8, 4#8] : List Byte).length ∧ 0 < 8 ∧ 7 < 8 := by decide

/-- Both ends of the index range. -/
theorem witness_MixingIsTrueModulo : (0#7).toNat < 106 ∧ (105#7).toNat < 106 := by decide

theorem witness_PushedEntryReadsBack : keyed.Inv ∧ (105#7).toNat < 106 ∧ keyed.klen < keyed.cfg.kmax :=
  ⟨witness_inv, by decide, by decide⟩

theorem witness_KeySetLoadsPassphrase :
    keyed.Inv ∧ [15#7, 0#7, 18#7, 105#7].length ≤ keyed.cfg.kmax ∧
      ∀ x ∈ ([15#7, 0#7, 18#7, 105#7] : List Index), x.toNat < 106 :=
  ⟨witness_inv, by decide, by decide⟩

theorem witness_MessageIsDocumentFunction :
    keyed.Inv ∧ ([15#7, 0#7, 18#7] : List Index) ≠ [] ∧ [15#7, 0#7, 18#7].length ≤ keyed.cfg.kmax ∧
      (∀ x ∈ ([15#7, 0#7, 18#7] : List Index), x.toNat < 106) ∧
      ∀ x ∈ ([100#7, 5#7, 90#7, 105#7] : List Index), x.toNat < 106 :=
  ⟨witness_inv, by decide, by decide, by decide, by decide⟩

theorem witness_RoundTripGivesMessage :
    keyed.Inv ∧ 1 ≤ keyed.klen ∧ ∀ c ∈ ([0x48#21, 0x21#21] : List Sym), c ∈ keyed.cfg.alphabet.toList := by
  refine ⟨witness_inv, by decide, fun c hc => ?_⟩
  rcases List.mem_pair.mp hc with rfl | rfl <;> decide +kernel

theorem witness_CharacterConversionInverts :
    keyed.Inv ∧ 0x48#21 ∈ keyed.cfg.alphabet.toList ∧ (105#7).toNat < 106 :=
  ⟨witness_inv, by decide, by decide⟩

theorem witness_PositionCountsSuccessfulMixes :
    1 ≤ keyed.klen ∧ keyed.kpos = 0 ∧
      ∀ i ∈ [Instr.enc 1#32, Instr.enc 110#32, Instr.decs 0x48#32, Instr.nop 0#32], isKeyCommand i = false := by decide

theorem witness_ProtocolGivesDocumentFunction :
    keyed.Inv ∧ ([0x70#21, 0x61#21] : List Sym).length ≤ keyed.cfg.kmax := ⟨witness_inv, by decide⟩

/-- The empty text, the last ASCII character, and the first character that is not ASCII. -/
theorem witness_CrcStrFeedsText :
    (∀ c ∈ ([] : List Char), c.toNat < 128) ∧ (∀ c ∈ ['R', Char.ofNat 127], c.toNat < 128) ∧
      ∃ c ∈ ['R', Char.ofNat 128], 128 ≤ c.toNat := by simp

theorem witness_AssembledCommandsAreLegal : assemble "ENC" (.number 105) = some (.enc 105#32) ∧
    assemble "NOP" .absent = some (.nop 0#32) ∧ assemble "ENCS" (.charlit 'H') = some (.encs 0x48#32) := by decide

end Sys2Proof.Tests
end

section
/-! PROOF. The alphabet as a bijection between indices and its symbols (00_scope.md R6). -/

namespace Sys2Proof.Machine

theorem alphabetLegal_of_legal {c : Config} (h : c.legal = true) : alphabetLegal c.alphabet = true :=
  (Bool.and_eq_true_iff.mp h).2

/-- R6: the symbols of a legal alphabet are distinct. -/
theorem alphabet_getElem_inj {c : Config} (h : c.legal = true) {i j : Nat} {hi : i < 106} {hj : j < 106} :
    c.alphabet[i] = c.alphabet[j] ↔ i = j := by
  obtain ⟨distinct, -⟩ := (alphabetLegal_iff c.alphabet).mp (alphabetLegal_of_legal h)
  rw [← Vector.getElem_toList (by simpa), ← Vector.getElem_toList (by simpa), distinct.getElem_inj_iff]

/-- Looking up the symbol at an index gives that index: the lookup finds some index with this symbol, and a legal
alphabet has no other. -/
theorem indexOf_getElem {c : Config} (h : c.legal = true) {i : Index} (hi : i.toNat < 106) :
    indexOf c c.alphabet[i.toNat] = some i := by
  have found : indexOf c c.alphabet[i.toNat] ≠ none := fun hn =>
    indexOf_none_iff.mp hn (Vector.mem_toList_iff.mpr (Vector.getElem_mem hi))
  obtain ⟨j, hj⟩ := Option.ne_none_iff_exists'.mp found
  obtain ⟨_, same⟩ := indexOf_some hj
  rw [hj, BitVec.eq_of_toNat_eq ((alphabet_getElem_inj h).mp same)]

/-- Settles O45: `indexOf_some` is one direction, `indexOf_getElem` the other. -/
theorem indexOfInvertsAlphabet : Obligations.IndexOfInvertsAlphabet := by
  intro c sym i legal
  constructor
  · exact indexOf_some
  · rintro ⟨hi, rfl⟩
    exact indexOf_getElem legal hi

end Sys2Proof.Machine
end

section
/-! PROOF. The legal states (10_state.md R27): reset is one, and every operation, command and step keeps them. -/

namespace Sys2Proof.Machine

variable {s t : State} {i : Instr}

/-! ### The legal parameters (R5) and an entry written at the end of the buffer (R24) -/

theorem kmax_bounds_of_legal {c : Config} (h : c.legal = true) : 1 ≤ c.kmax ∧ c.kmax ≤ 65535 := by
  obtain ⟨bounds, -⟩ := Bool.and_eq_true_iff.mp h
  simpa using bounds

/-- R6: the block of the reset state is one that may be built. -/
theorem standard_legal : Config.standard.legal = true :=
  Bool.and_eq_true_iff.mpr ⟨by decide, builtAlphabet_legal⟩

/-- R27, both of its cases: the position is below `max(klen, 1)`. -/
theorem keyPosition_iff : s.KeyPosition ↔ s.kpos < max s.klen 1 := by
  unfold State.KeyPosition
  omega

/-- R24: writing entry `klen` and counting it adds one entry to those in use. -/
theorem take_set_succ {α : Type} (l : List α) {n : Nat} (a : α) (h : n < l.length) :
    (l.set n a).take (n + 1) = l.take n ++ [a] := by
  rw [List.take_add_one, List.take_set_of_le le_rfl, List.getElem?_set_self h]
  rfl

/-! ### Each operation keeps the legal states -/

/-- The registers and fields no clause of the invariant speaks of may hold anything. -/
theorem State.Inv.set_unconstrained (h : s.Inv) (crc : Word) (m : Bool) (epoch : Nat) (host : List Transaction)
    (observed : List Word) :
    State.Inv { s with crcState := crc, matchFlag := m, keyEpoch := epoch, host := host, observed := observed } :=
  { h with }

theorem ErrorKind.code_le (e : ErrorKind) : e.code.toNat ≤ 7 := by cases e <;> decide

theorem ErrorKind.code_ne_zero (e : ErrorKind) : e.code ≠ 0#4 := by cases e <;> decide

theorem State.Inv.raise (h : s.Inv) (e : ErrorKind) (info : Word) : (raise e info s).Inv :=
  { h with
    err_le := e.code_le
    err_sticky := fun _ => rfl
    einfo_sticky := fun clear => nomatch clear }

theorem State.Inv.done (h : s.Inv) : (done s).Inv :=
  { h with
    err_le := Nat.zero_le _
    err_sticky := fun failed => absurd rfl failed }

/-- R111: STICKY may be cleared because EINFO and ERR are cleared with it. -/
theorem State.Inv.statClr (h : s.Inv) :
    (Machine.done { s with matchFlag := false, sticky := false, einfo := 0#32 }).Inv :=
  { h with
    err_le := Nat.zero_le _
    err_sticky := fun failed => absurd rfl failed
    einfo_sticky := fun _ => rfl }

theorem State.Inv.clearKey (h : s.Inv) : (clearKey s).Inv :=
  { h with
    klen_le := Nat.zero_le _
    key_position := .inl ⟨rfl, rfl⟩
    key_entries := by simp }

theorem State.Inv.set_kpos (h : s.Inv) {k : Nat} (hk : k < max s.klen 1) : State.Inv { s with kpos := k } :=
  { h with key_position := keyPosition_iff.mpr hk }

theorem State.Inv.setResult (h : s.Inv) {v : Word} (hv : v.toNat < 2 ^ 21) : (setResult v s).Inv :=
  { h with res_lt := hv }

/-- R87, R88: the buffer has room, so the new entry is stored, and it is the only one not in use before. -/
theorem State.Inv.pushEntry (h : s.Inv) {e : Index} (room : s.klen ≠ s.cfg.kmax) (he : e.toNat < 106) :
    State.Inv { s with key := s.key.set s.klen e, klen := s.klen + 1 } := by
  have fits := h.klen_le
  have size := h.key_length
  have position := keyPosition_iff.mp h.key_position
  exact
    { h with
      key_length := List.length_set.trans size
      klen_le := by dsimp only; omega
      key_position := keyPosition_iff.mpr (by dsimp only; omega)
      key_entries := by
        dsimp only
        rw [take_set_succ _ _ (by omega)]
        intro x hx
        obtain old | rfl := (List.mem_append.mp hx).imp_right List.mem_singleton.mp
        · exact h.key_entries x old
        · exact he }

/-- R29: a result is an index or a code point, at most 21 bits wide. -/
theorem toNat_setWidth_lt {w : Nat} (x : BitVec w) (h : w ≤ 21) : (x.setWidth 32).toNat < 2 ^ 21 := by
  rw [BitVec.toNat_setWidth_of_le (by omega)]
  exact x.isLt.trans_le (Nat.pow_le_pow_right two_pos h)

theorem indexResult_lt (c : Config) (j : Index) : (indexResult c j).toNat < 2 ^ 21 := toNat_setWidth_lt j (by decide)

theorem symbolResult_lt (c : Config) (j : Index) : (symbolResult c j).toNat < 2 ^ 21 := toNat_setWidth_lt _ le_rfl

/-- R91-R94: with a key loaded, the position stays within it. -/
theorem State.Inv.cipherStep (h : s.Inv) (loaded : s.klen ≠ 0) (mix : Index → Index → Index) (m : Index)
    {result : Config → Index → Word} (small : ∀ c j, (result c j).toNat < 2 ^ 21) :
    (cipherStep mix result m s).Inv := by
  have within : (s.kpos + 1) % s.klen < max s.klen 1 :=
    (Nat.mod_lt _ (Nat.pos_of_ne_zero loaded)).trans_le (le_max_left ..)
  exact ((h.setResult (small _ _)).set_kpos within).done

theorem resetWith_inv {c : Config} (legal : c.legal = true) : (State.resetWith c).Inv where
  cfg_legal := legal
  key_length := List.length_replicate
  klen_le := Nat.zero_le _
  key_position := .inl ⟨rfl, rfl⟩
  key_entries := by simp
  err_le := Nat.zero_le _
  err_sticky := fun failed => absurd rfl failed
  einfo_sticky := fun _ => rfl
  res_lt := by simp

theorem State.Inv.resetBlock (h : s.Inv) : (resetBlock s).Inv :=
  (resetWith_inv h.cfg_legal).set_unconstrained _ _ _ _ _

/-! ### Commands and steps keep the legal states -/

theorem Effect.keeps_inv (h : Effect s i t) (inv : s.Inv) : t.Inv := by
  cases h with
  | reserved | noKey | badIndex | unsupported | keyFullIndex | keyFullSymbol => exact inv.raise _ _
  | nop => exact inv.done
  | statClr => exact inv.statClr
  | crcInit | crcB | crcW | crcMatch => exact (inv.set_unconstrained _ _ _ _ _).done
  | crcMismatch => exact (inv.set_unconstrained _ _ _ _ _).raise _ _
  | keyClr => exact inv.clearKey.done
  | keyRst => exact (inv.set_kpos (by omega)).done
  | keyPush _ small room => exact (inv.pushEntry room small).done
  | keyPushs _ found room => exact (inv.pushEntry room (indexOf_lt found)).done
  | enc _ loaded | dec _ loaded => exact inv.cipherStep loaded _ _ indexResult_lt
  | encs _ loaded | decs _ loaded => exact inv.cipherStep loaded _ _ symbolResult_lt
  | symIdx => exact (inv.setResult (indexResult_lt s.cfg _)).done
  | idxSym => exact (inv.setResult (symbolResult_lt s.cfg _)).done

theorem issue_keeps_inv {cmd : Cmd} (h : issue cmd s = .next t) (inv : s.Inv) : t.Inv := by
  obtain ⟨i, -, h⟩ | ⟨op, -, rfl⟩ := issue_cases h
  · exact (exec_effect h).keeps_inv inv
  · exact inv.raise _ _

/-- Settles O31: a transaction is taken, and what it does keeps the legal states. -/
theorem stepKeepsLegalState : Obligations.StepKeepsLegalState := by
  intro s t inv h
  have taken (rest : List Transaction) : State.Inv { s with host := rest } := inv.set_unconstrained _ _ _ _ _
  obtain ⟨-, rfl⟩ | ⟨cmd, rest, -, h⟩ | ⟨a, rest, -, rfl⟩ | ⟨rest, -, rfl⟩ := step_cases h
  · exact inv
  · exact issue_keeps_inv h (taken rest)
  · exact (taken rest).set_unconstrained _ _ _ _ _
  · exact (taken rest).resetBlock

/-- Settles O32. -/
theorem resetIsLegalState : Obligations.ResetIsLegalState :=
  ⟨fun _ legal => resetWith_inv legal, resetWith_inv standard_legal⟩

end Sys2Proof.Machine
end

section
/-! PROOF. The read port and reads (10_state.md R31-R33), which command changes which register (R34), STICKY (R22), the
parameters along a step (R20, R28). -/

namespace Sys2Proof.Machine

variable {s t : State} {i : Instr}

/-! ### The read port -/

theorem toNat_zext16 {n : Nat} (h : n < 2 ^ 16) : (zext16 n).toNat = n := by
  unfold zext16
  rw [BitVec.toNat_setWidth_of_le (by decide), BitVec.toNat_ofNat, Nat.mod_eq_of_lt h]

theorem toNat_paramWord {c : Config} (h : c.kmax < 2 ^ 16) : (paramWord c).toNat = 106 * 2 ^ 16 + c.kmax := by
  unfold paramWord
  rw [BitVec.toNat_append, BitVec.toNat_ofNat, Nat.mod_eq_of_lt h, ← Nat.shiftLeft_add_eq_or_of_lt h]
  rfl

/-- Settles O7: the words are those of the port's equations (`readPort_status` and the others); the 16-bit fields hold
their naturals because KMAX fits 16 bits. -/
theorem readPortMap : Obligations.ReadPortMap := by
  intro s inv
  obtain ⟨-, kmax_le⟩ := kmax_bounds_of_legal inv.cfg_legal
  have klen_le := inv.klen_le
  have position := keyPosition_iff.mp inv.key_position
  exact ⟨rfl, rfl, rfl, rfl, rfl, toNat_zext16 (by omega), toNat_zext16 (by omega), toNat_paramWord (by omega)⟩

/-! ### A step by the transaction it takes -/

theorem step_wait (h : s.host = []) : step s = .next s := by
  unfold step; rw [h]

theorem step_issue {cmd : Cmd} {rest : List Transaction} (h : s.host = .issue cmd :: rest) :
    step s = issue cmd { s with host := rest } := by
  unfold step; rw [h]

theorem step_read {a : PortAddr} {rest : List Transaction} (h : s.host = .read a :: rest) :
    step s = .next (observe a { s with host := rest }) := by
  unfold step; rw [h]

theorem step_reset {rest : List Transaction} (h : s.host = .reset :: rest) :
    step s = .next (resetBlock { s with host := rest }) := by
  unfold step; rw [h]

/-- Settles O8: the value returned does not depend on the host's part of the state (`readPort_host`). -/
theorem readHasNoSideEffect : Obligations.ReadHasNoSideEffect := by
  intro s a rest h
  rw [step_read h, observe, readPort_host]

/-! ### Which commands change which register (R34) -/

theorem Effect.keeps_environment (h : Effect s i t) : t.host = s.host ∧ t.observed = s.observed ∧ t.cfg = s.cfg := by
  cases h <;> exact ⟨rfl, rfl, rfl⟩

theorem Effect.opcode_of_crcState_ne (h : Effect s i t) (changed : t.crcState ≠ s.crcState) :
    i.opcode ∈ [0x01#8, 0x02#8, 0x03#8] := by
  cases h with
  | crcInit | crcB | crcW => simp [Instr.opcode]
  | _ => exact absurd rfl changed

theorem Effect.opcode_of_key_ne (h : Effect s i t) (changed : t.key ≠ s.key) :
    i.opcode ∈ [0x11#8, 0x12#8] ∧ ∃ v, t.key = s.key.set s.klen v := by
  cases h with
  | keyPush | keyPushs => exact ⟨by simp [Instr.opcode], _, rfl⟩
  | _ => exact absurd rfl changed

theorem Effect.opcode_of_klen_ne (h : Effect s i t) (changed : t.klen ≠ s.klen) :
    i.opcode ∈ [0x10#8, 0x11#8, 0x12#8] := by
  cases h with
  | keyClr | keyPush | keyPushs => simp [Instr.opcode]
  | _ => exact absurd rfl changed

theorem Effect.opcode_of_kpos_ne (h : Effect s i t) (changed : t.kpos ≠ s.kpos) :
    i.opcode ∈ [0x10#8, 0x13#8, 0x14#8, 0x15#8, 0x16#8, 0x17#8] := by
  cases h with
  | keyClr | keyRst | enc | dec | encs | decs => simp [Instr.opcode]
  | _ => exact absurd rfl changed

theorem Effect.opcode_of_res_ne (h : Effect s i t) (changed : t.res ≠ s.res) :
    i.opcode ∈ [0x14#8, 0x15#8, 0x16#8, 0x17#8, 0x18#8, 0x19#8] := by
  cases h with
  | enc | dec | encs | decs | symIdx | idxSym => simp [Instr.opcode]
  | _ => exact absurd rfl changed

theorem Effect.opcode_of_matchFlag_ne (h : Effect s i t) (changed : t.matchFlag ≠ s.matchFlag) :
    i.opcode ∈ [0x04#8, 0xF0#8] := by
  cases h with
  | crcMatch | crcMismatch | statClr => simp [Instr.opcode]
  | _ => exact absurd rfl changed

/-- R22, R119, R121: every command but STAT.CLR adds its own failure to STICKY: an error sets it, success keeps it. -/
theorem Effect.sticky_eq (h : Effect s i t) (other : ∀ data, i ≠ .statClr data) :
    t.sticky = (s.sticky || decide (t.err ≠ 0#4)) := by
  cases h with
  | statClr => exact absurd rfl (other _)
  | reserved | noKey | badIndex | unsupported | keyFullIndex | keyFullSymbol | crcMismatch =>
    simp [ErrorKind.code_ne_zero]
  | _ => exact (Bool.or_false _).symm

theorem Effect.opcode_of_sticky_cleared (h : Effect s i t) (after : t.sticky = false) (before : s.sticky = true) :
    i.opcode = 0xF0#8 := by
  by_contra hne
  have other : ∀ data, i ≠ .statClr data := by
    rintro data rfl
    exact hne rfl
  have kept := h.sticky_eq other
  simp [after, before] at kept

/-- Settles O35: one lemma per register, each by what a command can do. -/
theorem registersChangeOnlyByTheirCommands : Obligations.RegistersChangeOnlyByTheirCommands := by
  intro i s t h
  have effect := exec_effect h
  exact ⟨effect.opcode_of_crcState_ne, effect.opcode_of_key_ne, effect.opcode_of_klen_ne, effect.opcode_of_kpos_ne,
    effect.opcode_of_res_ne, effect.opcode_of_matchFlag_ne, effect.opcode_of_sticky_cleared, effect.keeps_environment⟩

/-! ### STICKY along a sequence of commands -/

theorem someFails_cons (i : Instr) (rest : List Instr) (s : State) :
    someFails (i :: rest) s = (decide ((afterCommand i s).err ≠ 0#4) || someFails rest (afterCommand i s)) := by
  rw [someFails, exec_eq_next]

/-- Settles O30, by induction on the commands: the first adds its failure to STICKY, the rest add theirs. -/
theorem stickyRecordsFailures : Obligations.StickyRecordsFailures := by
  intro commands
  induction commands with
  | nil => exact fun s _ => ⟨s, rfl, (Bool.or_false _).symm⟩
  | cons i rest ih =>
    intro s others
    obtain ⟨other, others⟩ := List.forall_mem_cons.mp others
    obtain ⟨t, run, sticky⟩ := ih (afterCommand i s) others
    have first := (exec_effect (exec_eq_next i s)).sticky_eq other
    exact ⟨t, (execAll_cons ..).trans run, by rw [sticky, first, someFails_cons, Bool.or_assoc]⟩

/-! ### The parameters along a step -/

theorem issue_keeps_environment {cmd : Cmd} (h : issue cmd s = .next t) :
    t.host = s.host ∧ t.observed = s.observed ∧ t.cfg = s.cfg := by
  obtain ⟨i, -, h⟩ | ⟨op, -, rfl⟩ := issue_cases h
  · exact (exec_effect h).keeps_environment
  · exact ⟨rfl, rfl, rfl⟩

/-- Settles O34: of the four kinds of steps only a read appends to what was observed. -/
theorem stepKeepsParameters : Obligations.StepKeepsParameters := by
  intro s t h
  obtain ⟨-, rfl⟩ | ⟨cmd, rest, -, h⟩ | ⟨a, rest, -, rfl⟩ | ⟨rest, -, rfl⟩ := step_cases h
  · exact ⟨rfl, .inl rfl⟩
  · obtain ⟨-, observed, cfg⟩ := issue_keeps_environment h
    exact ⟨cfg, .inl observed⟩
  · exact ⟨rfl, .inr ⟨a, rfl⟩⟩
  · exact ⟨rfl, .inl rfl⟩

end Sys2Proof.Machine
end

section
/-! PROOF. Key entries at or above klen are never seen (10_state.md R24, R35): two runs from states that differ in them
only, operation by operation. -/

namespace Sys2Proof.Machine

variable {s t : State}

/-! ### The relation -/

/-- Two such states, the second written as an update of the first. -/
theorem sameButKeyTail_iff :
    SameButKeyTail s t ↔
      ∃ key epoch, t = { s with key := key, keyEpoch := epoch } ∧ key.take s.klen = s.key.take s.klen := by
  constructor
  · rintro ⟨eq, entries⟩
    exact ⟨t.key, t.keyEpoch, eq, entries⟩
  · rintro ⟨key, epoch, rfl, entries⟩
    exact ⟨rfl, entries⟩

theorem SameButKeyTail.cfg_eq (h : SameButKeyTail s t) : t.cfg = s.cfg := (congrArg State.cfg h.1 :)

theorem SameButKeyTail.crcState_eq (h : SameButKeyTail s t) : t.crcState = s.crcState := (congrArg State.crcState h.1 :)

theorem SameButKeyTail.klen_eq (h : SameButKeyTail s t) : t.klen = s.klen := (congrArg State.klen h.1 :)

theorem SameButKeyTail.kpos_eq (h : SameButKeyTail s t) : t.kpos = s.kpos := (congrArg State.kpos h.1 :)

theorem SameButKeyTail.host_eq (h : SameButKeyTail s t) : t.host = s.host := (congrArg State.host h.1 :)

/-- An update that neither reads nor writes KEY, keyEpoch and klen keeps the relation. -/
theorem SameButKeyTail.map {f : State → State} (h : SameButKeyTail s t)
    (commutes : ∀ (s : State) key epoch,
      f { s with key := key, keyEpoch := epoch } = { f s with key := key, keyEpoch := epoch } := by intros; rfl)
    (klen_eq : (f s).klen = s.klen := by rfl) : SameButKeyTail (f s) (f t) := by
  obtain ⟨key, epoch, rfl, entries⟩ := sameButKeyTail_iff.mp h
  have key_eq : (f s).key = s.key := (congrArg State.key (commutes s s.key s.keyEpoch) :)
  exact sameButKeyTail_iff.mpr ⟨key, epoch, commutes s key epoch, by rwa [klen_eq, key_eq]⟩

theorem SameButKeyTail.raise (h : SameButKeyTail s t) (e : ErrorKind) (info : Word) :
    SameButKeyTail (raise e info s) (raise e info t) := h.map

theorem SameButKeyTail.done (h : SameButKeyTail s t) : SameButKeyTail (done s) (done t) := h.map

/-! ### The checks take the same branch in both states -/

theorem SameButKeyTail.guarded {i : Instr} {body : State → State} (h : SameButKeyTail s t)
    (hb : SameButKeyTail (body s) (body t)) : SameButKeyTail (guarded i body s) (guarded i body t) := by
  by_cases hr : i.data &&& i.reservedMask = 0#32
  · rwa [guarded_legal hr, guarded_legal hr]
  · rw [guarded_reserved hr, guarded_reserved hr]
    exact h.raise _ _

theorem SameButKeyTail.requireKey {body : State → State} (h : SameButKeyTail s t)
    (hb : s.klen ≠ 0 → SameButKeyTail (body s) (body t)) : SameButKeyTail (requireKey body s) (requireKey body t) := by
  by_cases hl : s.klen = 0
  · rw [requireKey_empty hl, requireKey_empty (h.klen_eq.trans hl)]
    exact h.raise _ _
  · rw [requireKey_loaded hl, requireKey_loaded (h.klen_eq ▸ hl)]
    exact hb hl

theorem SameButKeyTail.withOperand {operand : Except ErrorKind Index} {data : Word} {body : Index → State → State}
    (h : SameButKeyTail s t) (hb : ∀ j, SameButKeyTail (body j s) (body j t)) :
    SameButKeyTail (withOperand operand data body s) (withOperand operand data body t) := by
  cases operand with
  | error e => exact h.raise e data
  | ok j => exact hb j

theorem SameButKeyTail.withSymbol {data : Word} {body : Index → State → State} (h : SameButKeyTail s t)
    (hb : ∀ j, SameButKeyTail (body j s) (body j t)) :
    SameButKeyTail (Machine.withOperand (checkSym s.cfg data) data body s)
      (Machine.withOperand (checkSym t.cfg data) data body t) :=
  h.cfg_eq ▸ h.withOperand hb

/-! ### The operations on the key buffer -/

/-- KEY.CLR leaves no entry in use. -/
theorem SameButKeyTail.clearKey (h : SameButKeyTail s t) : SameButKeyTail (clearKey s) (clearKey t) := by
  obtain ⟨key, epoch, rfl, -⟩ := sameButKeyTail_iff.mp h
  exact sameButKeyTail_iff.mpr ⟨key, epoch + 1, rfl, rfl⟩

theorem SameButKeyTail.resetBlock (h : SameButKeyTail s t) : SameButKeyTail (resetBlock s) (resetBlock t) := by
  obtain ⟨key, epoch, rfl, -⟩ := sameButKeyTail_iff.mp h
  exact sameButKeyTail_iff.mpr ⟨List.replicate s.cfg.kmax 0#7, epoch + 1, rfl, rfl⟩

/-- A push overwrites the first entry in which the two may differ. -/
theorem SameButKeyTail.appendKey (h : SameButKeyTail s t) (hs : s.Inv) (ht : t.Inv) (data : Word) (j : Index) :
    SameButKeyTail (appendKey data j s) (appendKey data j t) := by
  have same_limit : t.klen = t.cfg.kmax ↔ s.klen = s.cfg.kmax := by rw [h.klen_eq, h.cfg_eq]
  by_cases full : s.klen = s.cfg.kmax
  · rw [appendKey_full full, appendKey_full (same_limit.mpr full)]
    exact h.raise _ _
  · rw [appendKey_room full, appendKey_room (same_limit.not.mpr full)]
    have room : s.klen < s.cfg.kmax := lt_of_le_of_ne hs.klen_le full
    obtain ⟨key, epoch, rfl, entries⟩ := sameButKeyTail_iff.mp h
    have size : key.length = s.cfg.kmax := ht.key_length
    refine SameButKeyTail.done (sameButKeyTail_iff.mpr ⟨key.set s.klen j, epoch, rfl, ?_⟩)
    rw [take_set_succ _ _ (size ▸ room), take_set_succ _ _ (hs.key_length ▸ room), entries]

/-- The entry at the position is in use, so both states read the same one. -/
theorem SameButKeyTail.keyEntry_kpos (h : SameButKeyTail s t) (hs : s.Inv) (ht : t.Inv) (loaded : s.klen ≠ 0) :
    keyEntry t t.kpos = keyEntry s s.kpos := by
  have used : s.kpos < s.klen := by
    have position := keyPosition_iff.mp hs.key_position
    omega
  have stored : s.kpos < s.key.length := by
    rw [hs.key_length]
    exact used.trans_le hs.klen_le
  have stored' : s.kpos < t.key.length := by rwa [ht.key_length, h.cfg_eq, ← hs.key_length]
  rw [h.kpos_eq, keyEntry_of_lt (h.klen_eq ▸ used) stored', keyEntry_of_lt used stored]
  have same := congrArg (·[s.kpos]?) h.2
  simpa [used, stored, stored'] using same

theorem SameButKeyTail.cipherStep (h : SameButKeyTail s t) (hs : s.Inv) (ht : t.Inv) (loaded : s.klen ≠ 0)
    (mix : Index → Index → Index) (result : Config → Index → Word) (m : Index) :
    SameButKeyTail (cipherStep mix result m s) (cipherStep mix result m t) := by
  rw [cipherStep_eq, cipherStep_eq, h.keyEntry_kpos hs ht loaded]
  obtain ⟨key, epoch, rfl, entries⟩ := sameButKeyTail_iff.mp h
  exact sameButKeyTail_iff.mpr ⟨key, epoch, rfl, entries⟩

/-! ### Commands and steps -/

/-- The two runs of one command: the reserved bits are checked first, then by the operations of its meaning. -/
theorem SameButKeyTail.afterCommand (h : SameButKeyTail s t) (hs : s.Inv) (ht : t.Inv) (i : Instr) :
    SameButKeyTail (afterCommand i s) (afterCommand i t) := by
  cases i <;> apply h.guarded
  case nop => exact h.done
  case statClr | crcInit | crcB | crcW | keyRst => apply h.map
  case crcChk data =>
    have crc_eq : finishedCrc t = finishedCrc s := congrArg (· ^^^ 0xFFFFFFFF#32) h.crcState_eq
    by_cases hm : finishedCrc s = data
    · simp only [crc_eq, if_pos hm]
      apply h.map
    · simp only [crc_eq, if_neg hm]
      apply h.map
  case keyClr => exact h.clearKey.done
  case keyPush data => exact h.withOperand (h.appendKey hs ht data)
  case keyPushs data => exact h.withSymbol (h.appendKey hs ht data)
  case enc | dec => exact h.requireKey fun loaded => h.withOperand (h.cipherStep hs ht loaded _ _)
  case encs | decs => exact h.requireKey fun loaded => h.withSymbol (h.cipherStep hs ht loaded _ _)
  case symIdx =>
    refine h.withSymbol fun j => ?_
    apply h.map
  case idxSym =>
    refine h.withOperand fun j => ?_
    apply h.map

theorem SameButKeyTail.issue (h : SameButKeyTail s t) (hs : s.Inv) (ht : t.Inv) (cmd : Cmd) :
    ∃ s' t', issue cmd s = .next s' ∧ issue cmd t = .next t' ∧ SameButKeyTail s' t' := by
  cases hd : decode cmd with
  | command i =>
    rw [issue_command hd, issue_command hd]
    exact ⟨_, _, exec_eq_next i s, exec_eq_next i t, h.afterCommand hs ht i⟩
  | illegal op => exact ⟨_, _, issue_illegal hd, issue_illegal hd, h.raise _ _⟩

/-- Settles O37: both blocks take the same transaction, and no transaction looks at the entries in which they differ. -/
theorem keyTailIsUnobservable : Obligations.KeyTailIsUnobservable := by
  intro s t hs ht h
  have taken (rest : List Transaction) : SameButKeyTail { s with host := rest } { t with host := rest } :=
    h.map (f := fun u => { u with host := rest })
  cases hh : s.host with
  | nil => exact ⟨s, t, step_wait hh, step_wait (h.host_eq.trans hh), h⟩
  | cons transaction rest =>
    have hh' := h.host_eq.trans hh
    cases transaction with
    | issue cmd =>
      rw [step_issue hh, step_issue hh']
      exact (taken rest).issue (hs.set_unconstrained _ _ _ _ _) (ht.set_unconstrained _ _ _ _ _) cmd
    | read a => exact ⟨_, _, step_read hh, step_read hh', (taken rest).map⟩
    | reset => exact ⟨_, _, step_reset hh, step_reset hh', (taken rest).resetBlock⟩

end Sys2Proof.Machine
end

section
/-! PROOF. Issuing commands (20_memory.md R41): `Effect` is exactly what a command does, so what a run of a command does
not look at is read off its constructors: repeating a failure (R52), the independence of the two units (R45). -/

namespace Sys2Proof.Machine

variable {s t : State} {i : Instr}

/-- Settles O5: a step issues the word it takes, and issuing a word runs the command it decodes to. -/
theorem stepRunsIssuedCommand : Obligations.StepRunsIssuedCommand :=
  fun _ _ _ _ host decoded => (step_issue host).trans (issue_command decoded)

/-! ### `Effect` is exactly what a command does -/

theorem withOperand_of_ok {operand : Except ErrorKind Index} {j : Index} {data : Word}
    {body : Index → State → State} (h : operand = .ok j) : withOperand operand data body s = body j s := by
  rw [h, withOperand_ok]

theorem withOperand_of_error {operand : Except ErrorKind Index} {e : ErrorKind} {data : Word}
    {body : Index → State → State} (h : operand = .error e) : withOperand operand data body s = raise e data s := by
  rw [h, withOperand_error]

/-- R118: a command whose reserved bits are clear does what its rule says. -/
theorem next_guarded_legal {body : State → State} (legal : i.data &&& i.reservedMask = 0#32) (h : body s = t) :
    (.next (guarded i body s) : Result) = .next t := by
  rw [guarded_legal legal, h]

theorem next_guarded_reserved {body : State → State} (set : i.data &&& i.reservedMask ≠ 0#32) :
    (.next (guarded i body s) : Result) = .next (raise .reservedBits i.data s) := by
  rw [guarded_reserved set]

/-- The converse of `exec_effect`: every shape listed there happens, because each check that leads to it is taken. -/
theorem Effect.exec_eq (h : Effect s i t) : exec i s = .next t := by
  have operand_free (w : Word) : w &&& 0x00000000#32 = 0#32 := BitVec.and_zero
  cases h with
  | reserved set => cases i <;> exact next_guarded_reserved set
  | nop legal | statClr legal | crcInit legal | crcB legal | keyClr legal | keyRst legal =>
    exact next_guarded_legal legal rfl
  | crcW => exact next_guarded_legal (operand_free _) rfl
  | crcMatch equal => exact next_guarded_legal (operand_free _) (if_pos equal)
  | crcMismatch differ => exact next_guarded_legal (operand_free _) (if_neg differ)
  | noKey mixing legal empty =>
    cases i with
    | enc | dec | encs | decs => exact next_guarded_legal legal (requireKey_empty empty)
    | _ => cases mixing
  | badIndex mask legal big loaded =>
    cases i with
    | keyPush | idxSym => exact next_guarded_legal legal (withOperand_of_error (checkIdx_of_ge big))
    | enc | dec =>
      exact next_guarded_legal legal
        ((requireKey_loaded (loaded rfl)).trans (withOperand_of_error (checkIdx_of_ge big)))
    | _ => simp [Instr.reservedMask] at mask
  | unsupported mask legal missing loaded =>
    cases i with
    | keyPushs | symIdx => exact next_guarded_legal legal (withOperand_of_error (checkSym_of_none missing))
    | encs | decs =>
      exact next_guarded_legal legal
        ((requireKey_loaded (loaded rfl)).trans (withOperand_of_error (checkSym_of_none missing)))
    | _ => simp [Instr.reservedMask] at mask
  | keyFullIndex legal found full =>
    exact next_guarded_legal legal ((withOperand_of_ok found).trans (appendKey_full full))
  | keyFullSymbol legal found full =>
    exact next_guarded_legal legal ((withOperand_of_ok (checkSym_of_some found)).trans (appendKey_full full))
  | keyPush legal small room =>
    exact next_guarded_legal legal ((withOperand_of_ok (checkIdx_of_lt small)).trans (appendKey_room room))
  | keyPushs legal found room =>
    exact next_guarded_legal legal ((withOperand_of_ok (checkSym_of_some found)).trans (appendKey_room room))
  | enc legal loaded small | dec legal loaded small =>
    exact next_guarded_legal legal ((requireKey_loaded loaded).trans (withOperand_of_ok (checkIdx_of_lt small)))
  | encs legal loaded found | decs legal loaded found =>
    exact next_guarded_legal legal ((requireKey_loaded loaded).trans (withOperand_of_ok (checkSym_of_some found)))
  | symIdx legal found => exact next_guarded_legal legal (withOperand_of_ok (checkSym_of_some found))
  | idxSym legal small => exact next_guarded_legal legal (withOperand_of_ok (checkIdx_of_lt small))

/-- A command does one thing from one state. -/
theorem Effect.unique {u : State} (h : Effect s i t) (h' : Effect s i u) : t = u :=
  Host.Outcome.next.inj (h.exec_eq.symm.trans h'.exec_eq)

/-! ### Repeating a failing command (R52) -/

/-- R119, R120: a failure writes ERR, STICKY, EINFO and MATCH only, which no check reads, so the same check fails after
it, with the same writes. -/
theorem Effect.repeats (h : Effect s i t) (failed : t.err ≠ 0#4) : Effect t i t := by
  cases h with
  | reserved set => exact .reserved set
  | noKey mixing legal empty => exact .noKey mixing legal empty
  | badIndex mask legal big loaded => exact .badIndex mask legal big loaded
  | unsupported mask legal missing loaded => exact .unsupported mask legal missing loaded
  | keyFullIndex legal found full => exact .keyFullIndex legal found full
  | keyFullSymbol legal found full => exact .keyFullSymbol legal found full
  | crcMismatch differ => exact .crcMismatch differ
  | _ => exact absurd rfl failed

/-- Settles O29: a command by `Effect.repeats`; an illegal word is refused from every state alike. -/
theorem failingCommandRepeats : Obligations.FailingCommandRepeats := by
  intro cmd s t h failed
  obtain ⟨i, decoded, h⟩ | ⟨op, decoded, rfl⟩ := issue_cases h
  · rw [issue_command decoded]
    exact ((exec_effect h).repeats failed).exec_eq
  · exact issue_illegal decoded

/-! ### The two units (R45) -/

/-- R58, R85: a command of the CRC unit needs no passphrase and has no index and no symbol operand. -/
theorem crcCommand_operands (crcUnit : isCrcCommand i = true) :
    isMixing i ≠ true ∧ i.reservedMask ≠ 0xFFFFFF80#32 ∧ i.reservedMask ≠ 0xFFE00000#32 := by
  cases i with
  | crcInit | crcB | crcW | crcChk => simp [isMixing, Instr.reservedMask]
  | _ => cases crcUnit

/-- A command of the CRC unit does the same whatever the key buffer holds, and leaves it there. -/
theorem Effect.replace_key (h : Effect s i t) (crcUnit : isCrcCommand i = true) (key : List Index) (klen kpos : Nat) :
    Effect { s with key := key, klen := klen, kpos := kpos } i { t with key := key, klen := klen, kpos := kpos } := by
  obtain ⟨not_mixing, mask_ne_index, mask_ne_symbol⟩ := crcCommand_operands crcUnit
  cases h with
  | reserved set => exact .reserved set
  | crcInit legal => exact .crcInit legal
  | crcB legal => exact .crcB legal
  | crcW => exact .crcW
  | crcMatch equal => exact .crcMatch equal
  | crcMismatch differ => exact .crcMismatch differ
  | noKey mixing => exact absurd mixing not_mixing
  | badIndex mask => exact absurd mask mask_ne_index
  | unsupported mask => exact absurd mask mask_ne_symbol
  | _ => cases crcUnit

/-- A command of the cipher unit does the same whatever the CRC register holds, and leaves it there. -/
theorem Effect.replace_crcState (h : Effect s i t) (cipherUnit : isCipherCommand i = true) (crc : Word) :
    Effect { s with crcState := crc } i { t with crcState := crc } := by
  cases h with
  | reserved set => exact .reserved set
  | noKey mixing legal empty => exact .noKey mixing legal empty
  | badIndex mask legal big loaded => exact .badIndex mask legal big loaded
  | unsupported mask legal missing loaded => exact .unsupported mask legal missing loaded
  | keyFullIndex legal found full => exact .keyFullIndex legal found full
  | keyFullSymbol legal found full => exact .keyFullSymbol legal found full
  | keyClr legal => exact .keyClr legal
  | keyRst legal => exact .keyRst legal
  | keyPush legal small room => exact .keyPush legal small room
  | keyPushs legal found room => exact .keyPushs legal found room
  | enc legal loaded small => exact .enc legal loaded small
  | dec legal loaded small => exact .dec legal loaded small
  | encs legal loaded found => exact .encs legal loaded found
  | decs legal loaded found => exact .decs legal loaded found
  | symIdx legal found => exact .symIdx legal found
  | idxSym legal small => exact .idxSym legal small
  | _ => cases cipherUnit

/-- Settles O36: replacing the other unit's state by itself shows that it is kept. -/
theorem unitsAreIndependent : Obligations.UnitsAreIndependent := by
  intro i s t h
  have effect := exec_effect h
  constructor
  · intro crcUnit key klen kpos
    have kept := effect.unique (effect.replace_key crcUnit s.key s.klen s.kpos)
    exact ⟨(effect.replace_key crcUnit key klen kpos).exec_eq, (congrArg State.key kept :),
      (congrArg State.klen kept :), (congrArg State.kpos kept :)⟩
  · intro cipherUnit crc
    have kept := effect.unique (effect.replace_crcState cipherUnit s.crcState)
    exact ⟨(effect.replace_crcState cipherUnit crc).exec_eq, (congrArg State.crcState kept :)⟩

end Sys2Proof.Machine
end

section
/-! PROOF. Encoding and decoding (30_encoding.md R55-R60): they are inverse on the legal opcodes, reserved bits raise,
and illegal opcodes are refused. -/

namespace Sys2Proof.Machine

variable {i : Instr} {op : BitVec 8} {data : Word}

/-! ### The opcode map (R57) -/

theorem opOf_encode (i : Instr) : opOf (encode i) = i.opcode := (Laws.EncodeFields.of_append i.opcode i.data).1

theorem dataOf_encode (i : Instr) : dataOf (encode i) = i.data := (Laws.EncodeFields.of_append i.opcode i.data).2

theorem commandOf_opcode_data (i : Instr) : commandOf i.opcode i.data = some i := by
  cases i <;> rfl

/-- R57: the opcode alone decides whether a word names a command. -/
theorem commandOf_opcode_ne_none (i : Instr) (data : Word) : commandOf i.opcode data ≠ none := by
  cases i <;> exact Option.some_ne_none _

/-- R59: the opcodes that name nothing are those no command has. -/
theorem commandOf_eq_none_iff : commandOf op data = none ↔ ∀ i : Instr, i.opcode ≠ op := by
  constructor
  · rintro unnamed i rfl
    exact commandOf_opcode_ne_none i data unnamed
  · intro none_has
    refine Option.eq_none_iff_forall_ne_some.mpr fun i named => ?_
    exact none_has i (commandOf_some named).1.symm

/-! ### Encoding and decoding are inverse -/

theorem decode_encode (i : Instr) : decode (encode i) = .command i := by
  rw [encode, decode_append, commandOf_opcode_data]

theorem encode_of_decode {cmd : Cmd} (h : decode cmd = .command i) : encode i = cmd := by
  obtain ⟨op_eq, data_eq⟩ := decode_command h
  rw [encode, ← op_eq, ← data_eq, append_fields]

/-- Settles O1: `decode_encode` and `encode_of_decode`; a refused word's opcode names no command. -/
theorem decodeAndEncodeAreInverse : Obligations.DecodeAndEncodeAreInverse := by
  refine ⟨decode_encode, fun _ _ => encode_of_decode, fun cmd op refused => ?_⟩
  obtain ⟨op_eq, unnamed⟩ := decode_illegal refused
  exact ⟨op_eq.symm, commandOf_eq_none_iff.mp unnamed⟩

/-- Settles O2, by evaluating the decoder on the eight words. -/
theorem manualWordsDecode : Obligations.ManualWordsDecode := by
  unfold Obligations.ManualWordsDecode
  decide

/-! ### Reserved bits and illegal opcodes -/

/-- R58: the mask of each command is the one listed for its opcode. -/
theorem reservedMask_eq (i : Instr) : i.reservedMask = reservedMaskOf i.opcode := by
  cases i <;> rfl

/-- Settles O3: the check of the reserved bits comes first (`Effect.reserved`). -/
theorem reservedBitsRaise : Obligations.ReservedBitsRaise := by
  intro i s
  rw [← reservedMask_eq]
  exact ⟨rfl, fun set => (Effect.reserved set).exec_eq⟩

/-- R57, R59: the ranges of illegal opcodes hold no command's opcode. -/
theorem opcode_not_illegal (i : Instr) : ¬ IllegalOpcode i.opcode := by
  cases i <;> simp [IllegalOpcode, Instr.opcode]

theorem decode_append_illegal (h : IllegalOpcode op) (data : Word) : decode (op ++ data) = .illegal op := by
  have unnamed : commandOf op data = none := by
    rw [commandOf_eq_none_iff]
    rintro i rfl
    exact opcode_not_illegal i h
  rw [decode_append, unnamed]

/-- Settles O4: such a word is refused, and issuing a refused word raises. -/
theorem illegalOpcodeRaises : Obligations.IllegalOpcodeRaises := by
  intro op data s rest illegal host
  have refused := decode_append_illegal illegal data
  exact ⟨refused, (step_issue host).trans (issue_illegal refused)⟩

end Sys2Proof.Machine
end

section
/-! PROOF. A value written into an operand field (30_encoding.md R58, R61; R73 for the bytes of a word). -/

namespace Sys2Proof.Machine

/-- R58: a word that fits a field of `n` bits has none of the bits above it set. -/
theorem and_allOnes_shiftLeft_eq_zero {w : Word} {n : Nat} (h : w.toNat < 2 ^ n) :
    w &&& BitVec.allOnes 32 <<< n = 0#32 := by
  ext k hk
  by_cases within : k < n
  · simp [within]
  · have clear : w.toNat.testBit k = false :=
      Nat.testBit_lt_two_pow (h.trans_le (Nat.pow_le_pow_right two_pos (Nat.le_of_not_lt within)))
    simp [BitVec.getElem_eq_testBit_toNat, clear]

theorem setWidth_and_allOnes_shiftLeft {n : Nat} {x : BitVec n} (h : n ≤ 32) :
    x.setWidth 32 &&& BitVec.allOnes 32 <<< n = 0#32 :=
  and_allOnes_shiftLeft_eq_zero (by rw [BitVec.toNat_setWidth_of_le h]; exact x.isLt)

/-- R61: the field gives back the value zero-extended into the operand word. -/
theorem extractLsb'_setWidth {n : Nat} {x : BitVec n} (h : n ≤ 32) : (x.setWidth 32).extractLsb' 0 n = x := by
  rw [BitVec.extractLsb'_setWidth_of_le (by omega), BitVec.extractLsb'_eq_self]

theorem byteField_setWidth (b : Byte) : byteField (b.setWidth 32) = b := extractLsb'_setWidth (by decide)

theorem idxField_setWidth (x : Index) : idxField (x.setWidth 32) = x := extractLsb'_setWidth (by decide)

/-- R49, R73: the word of four bytes is fed as those bytes. -/
theorem wordBytes_append (b0 b1 b2 b3 : Byte) : wordBytes (b0 ++ b1 ++ b2 ++ b3) = [b0, b1, b2, b3] := by
  have above {n k : Nat} (x : BitVec n) (b : Byte) : (x ++ b).extractLsb' (k + 8) 8 = x.extractLsb' k 8 :=
    BitVec.extractLsb'_append_eq_of_le (Nat.le_add_left 8 k)
  simp only [wordBytes, above, BitVec.extractLsb'_append_eq_right, BitVec.extractLsb'_eq_self]

end Sys2Proof.Machine
end

section
/-! PROOF. The expansions of the pseudo-instructions that feed the CRC (30_encoding.md R64-R66). -/

namespace Sys2Proof.Machine

variable {i : Instr}

/-! ### Commands that feed bytes (R73) -/

/-- R73: the commands that feed bytes are CRC.B with its reserved bits clear, and CRC.W. -/
theorem feeding_cases (h : fedBytes i ≠ []) :
    (∃ data, i = .crcB data ∧ data &&& 0xFFFFFF00#32 = 0#32) ∨ ∃ data, i = .crcW data := by
  cases i with
  | crcB data => exact .inl ⟨data, rfl, by_contra fun set => h (if_neg set)⟩
  | crcW data => exact .inr ⟨data, rfl⟩
  | _ => exact absurd rfl h

theorem fedBytes_crcB {data : Word} (legal : data &&& 0xFFFFFF00#32 = 0#32) :
    fedBytes (.crcB data) = [byteField data] := if_pos legal

theorem fedBytes_crcW (data : Word) : fedBytes (.crcW data) = wordBytes data := rfl

theorem wellFormed_of_feeding (h : fedBytes i ≠ []) : i.wellFormed = true := by
  obtain ⟨data, rfl, legal⟩ | ⟨data, rfl⟩ := feeding_cases h
  · exact beq_iff_eq.mpr legal
  · exact beq_iff_eq.mpr BitVec.and_zero

/-- R76, R77: such a command feeds its bytes to the CRC register and completes. -/
theorem exec_of_feeding (h : fedBytes i ≠ []) (s : State) :
    exec i s = .next { s with crcState := crcRaw s.crcState (fedBytes i), err := 0#4 } := by
  obtain ⟨data, rfl, legal⟩ | ⟨data, rfl⟩ := feeding_cases h
  · rw [fedBytes_crcB legal]
    exact (Effect.crcB legal).exec_eq
  · exact Effect.crcW.exec_eq

/-- R80: a sequence of such commands feeds their bytes in order; ERR is 0 after the first. -/
theorem execAll_of_feeding {commands : List Instr} (h : ∀ i ∈ commands, fedBytes i ≠ []) (s : State) :
    execAll commands s = .next
      { s with
        crcState := crcRaw s.crcState (commands.flatMap fedBytes)
        err := if commands = [] then s.err else 0#4 } := by
  induction commands generalizing s with
  | nil => rfl
  | cons i rest ih =>
    obtain ⟨first, others⟩ := List.forall_mem_cons.mp h
    rw [execAll, exec_of_feeding first]
    simp only [ih others, List.flatMap_cons, crcRaw_append, ite_self, reduceCtorEq, if_false]

/-! ### CRC.BYTES (R64) -/

theorem fedBytes_crcB_setWidth (b : Byte) : fedBytes (.crcB (b.setWidth 32)) = [b] := by
  rw [fedBytes_crcB (setWidth_and_allOnes_shiftLeft (n := 8) (by decide)), byteField_setWidth]

/-- R64: fewer than four bytes are fed one at a time. -/
theorem crcBytes_of_short {bytes : List Byte}
    (short : ∀ b0 b1 b2 b3 rest, bytes = b0 :: b1 :: b2 :: b3 :: rest → False) :
    crcBytes bytes = bytes.map fun b => .crcB (b.setWidth 32) := by
  rw [crcBytes]
  exact short

/-- R64: the expansion feeds its bytes, in order, four of them by each CRC.W. -/
theorem crcBytes_flatMap_fedBytes (bytes : List Byte) : (crcBytes bytes).flatMap fedBytes = bytes := by
  induction bytes using crcBytes.induct with
  | case1 b0 b1 b2 b3 rest ih =>
    rw [crcBytes, List.flatMap_cons, ih, fedBytes_crcW, wordBytes_append]
    rfl
  | case2 rest short =>
    rw [crcBytes_of_short short, List.flatMap_map]
    simp [fedBytes_crcB_setWidth]

theorem crcBytes_feeding (bytes : List Byte) : ∀ i ∈ crcBytes bytes, fedBytes i ≠ [] := by
  induction bytes using crcBytes.induct with
  | case1 b0 b1 b2 b3 rest ih =>
    rw [crcBytes]
    exact List.forall_mem_cons.mpr ⟨nofun, ih⟩
  | case2 rest short =>
    rw [crcBytes_of_short short]
    simp [fedBytes_crcB_setWidth]

theorem crcBytes_eq_nil_iff {bytes : List Byte} : crcBytes bytes = [] ↔ bytes = [] := by
  constructor
  · intro h
    rw [← crcBytes_flatMap_fedBytes bytes, h, List.flatMap_nil]
  · rintro rfl
    rfl

/-- R64: CRC.BYTES feeds its bytes and changes nothing but crc_state and ERR. -/
theorem execAll_crcBytes (bytes : List Byte) (s : State) :
    execAll (crcBytes bytes) s = .next
      { s with
        crcState := crcRaw s.crcState bytes
        err := if bytes = [] then s.err else 0#4 } := by
  rw [execAll_of_feeding (crcBytes_feeding bytes), crcBytes_flatMap_fedBytes]
  simp only [crcBytes_eq_nil_iff]

/-! ### CRC.CHUNK (R66) and CRC.STR (R65) -/

theorem exec_crcInit (s : State) :
    exec (.crcInit 0#32) s = .next { s with crcState := 0xFFFFFFFF#32, err := 0#4 } :=
  (Effect.crcInit BitVec.zero_and).exec_eq

/-- Settles O44: CRC.INIT, then the bytes by `execAll_crcBytes`, from any state. -/
theorem chunkExpansionGivesChunkCrc : Obligations.ChunkExpansionGivesChunkCrc := by
  constructor
  · exact fun bytes =>
      ⟨crcBytes_flatMap_fedBytes bytes, fun i hi => wellFormed_of_feeding (crcBytes_feeding bytes i hi)⟩
  · intro t0 t1 t2 t3 bytes s
    rw [crcChunk, execAll, exec_crcInit]
    exact ⟨_, execAll_crcBytes _ _, rfl⟩

/-- Settles O57: CRC.BYTES over the bytes of the text. -/
theorem crcStrFeedsText : Obligations.CrcStrFeedsText := by
  intro otherText text s
  constructor
  · intro ascii
    rw [crcStr, textBytes_ascii otherText ascii, execAll_crcBytes]
    simp only [List.map_eq_nil_iff]
    rfl
  · intro other
    rw [crcStr, textBytes_other otherText other, execAll_crcBytes]

end Sys2Proof.Machine
end

section
/-! PROOF. Loading a passphrase (30_encoding.md R67, 41_cipher.md R86, R87). -/

namespace Sys2Proof.Machine

variable {s : State}

/-- R24: the key entries in use, first one first. -/
def State.entries (s : State) : List Index := s.key.take s.klen

/-- R24: the entries in use are what the commands read. -/
theorem keyEntry_of_entries {j : Nat} (hj : j < s.entries.length) : keyEntry s j = s.entries[j] := by
  obtain ⟨used, stored⟩ := lt_min_iff.mp (List.length_take ▸ hj)
  rw [keyEntry_of_lt used stored]
  exact List.getElem_take.symm

theorem State.Inv.entries_length (h : s.Inv) : s.entries.length = s.klen := by
  rw [State.entries, List.length_take, h.key_length, min_eq_left h.klen_le]

/-- R87: with room, an index below 106 is stored at entry klen. -/
theorem exec_keyPush_room {x : Index} (small : x.toNat < 106) (room : s.klen ≠ s.cfg.kmax) :
    exec (.keyPush (x.setWidth 32)) s =
      .next (done { s with key := s.key.set s.klen x, klen := s.klen + 1 }) := by
  have legal : x.setWidth 32 &&& 0xFFFFFF80#32 = 0#32 := setWidth_and_allOnes_shiftLeft (n := 7) (by decide)
  have pushed := (Effect.keyPush legal (by rwa [idxField_setWidth]) room).exec_eq
  rwa [idxField_setWidth] at pushed

/-- R87: pushing indices that fit appends them to the entries in use. -/
theorem execAll_keyPush {p : List Index} (inv : s.Inv) (fits : s.klen + p.length ≤ s.cfg.kmax)
    (small : ∀ x ∈ p, x.toNat < 106) (ok : s.err = 0#4) :
    ∃ t, execAll (p.map fun x => .keyPush (x.setWidth 32)) s = .next t ∧ t.Inv ∧ t.entries = s.entries ++ p ∧
      t.kpos = s.kpos ∧ t.err = 0#4 := by
  induction p generalizing s with
  | nil => exact ⟨s, rfl, inv, (List.append_nil _).symm, rfl, ok⟩
  | cons x rest ih =>
    obtain ⟨small, others⟩ := List.forall_mem_cons.mp small
    rw [List.length_cons] at fits
    have room : s.klen ≠ s.cfg.kmax := by omega
    have size := inv.key_length
    have entries : State.entries (done { s with key := s.key.set s.klen x, klen := s.klen + 1 }) = s.entries ++ [x] :=
      take_set_succ _ _ (by omega)
    obtain ⟨t, run, t_inv, t_entries, t_kpos, t_ok⟩ :=
      ih (inv.pushEntry room small).done (by simp; omega) others rfl
    refine ⟨t, ?_, t_inv, ?_, t_kpos, t_ok⟩
    · rw [List.map_cons, execAll, exec_keyPush_room small room]
      exact run
    · rw [t_entries, entries, List.append_assoc, List.singleton_append]

theorem exec_keyClr (s : State) : exec (.keyClr 0#32) s = .next (done (clearKey s)) :=
  (Effect.keyClr BitVec.zero_and).exec_eq

/-- Settles O48: KEY.CLR leaves no entry in use, the pushes append the passphrase. -/
theorem keySetLoadsPassphrase : Obligations.KeySetLoadsPassphrase := by
  intro s p inv fits small
  obtain ⟨t, run, t_inv, entries, kpos, ok⟩ :=
    execAll_keyPush inv.clearKey.done (by simpa using fits) small rfl
  have entries : t.entries = p := entries
  refine ⟨t, ?_, t_inv, ?_, kpos, ok, fun j hj => ?_⟩
  · rw [keySetI, execAll, exec_keyClr]
    exact run
  · rw [← t_inv.entries_length, entries]
  · subst entries
    exact keyEntry_of_entries hj

end Sys2Proof.Machine
end

section
/-! PROOF. The assembler (30_encoding.md R63): the table's fields are the operand bits R58 does not reserve, and a
placed operand keeps its value. -/

namespace Sys2Proof

/-- R61: the width of an operand field, 0 for none. -/
def OperandField.width : OperandField → Nat
  | .absent => 0
  | .field width _ => width

/-- R63: the value an operand stands for, 0 for none. -/
def AsmOperand.value : AsmOperand → Nat
  | .absent => 0
  | .number n => n
  | .charlit c => c.toNat

namespace Machine

/-- R58, R61: a row of the table names a command that takes the operand word as it is and reserves the bits above the
field. -/
def FieldIsUnreserved (row : String × OperandField × (Word → Instr)) : Prop :=
  row.2.1.width ≤ 32 ∧ ∀ w, (row.2.2 w).data = w ∧ (row.2.2 w).reservedMask = BitVec.allOnes 32 <<< row.2.1.width

theorem asmTable_fieldIsUnreserved : ∀ row ∈ asmTable, FieldIsUnreserved row := by
  simp [asmTable, FieldIsUnreserved, OperandField.width, Instr.data, Instr.reservedMask]

/-- R63: a number that fits its field is placed whole, any other is refused. -/
theorem placeNumber_value {n width : Nat} {w : Word} (wide : width ≤ 32)
    (h : (if n < 2 ^ width then some (BitVec.ofNat 32 n) else none) = some w) : w.toNat = n ∧ n < 2 ^ width := by
  obtain ⟨fits, placed⟩ := Option.ite_none_right_eq_some.mp h
  obtain rfl := Option.some.inj placed
  have small : n < 2 ^ 32 := fits.trans_le (Nat.pow_le_pow_right two_pos wide)
  exact ⟨Nat.mod_eq_of_lt small, fits⟩

/-- R63: the word placed holds the operand's value, which fits the field. -/
theorem placeOperand_value {field : OperandField} {operand : AsmOperand} {w : Word} (wide : field.width ≤ 32)
    (h : placeOperand field operand = some w) : w.toNat = operand.value ∧ operand.value < 2 ^ field.width := by
  unfold placeOperand at h
  split at h
  · obtain rfl := Option.some.inj h
    exact ⟨rfl, one_pos⟩
  · exact placeNumber_value wide h
  · exact placeNumber_value wide h
  · cases h

/-- R63: what is accepted comes from a row of the table whose field takes the operand. -/
theorem assemble_some {mnemonic : String} {operand : AsmOperand} {i : Instr} (h : assemble mnemonic operand = some i) :
    ∃ row ∈ asmTable, ∃ w, placeOperand row.2.1 operand = some w ∧ i = row.2.2 w := by
  unfold assemble at h
  split at h
  · cases h
  · obtain ⟨w, placed, rfl⟩ := Option.map_eq_some_iff.mp h
    exact ⟨_, List.mem_of_find?_eq_some ‹_›, w, placed, rfl⟩

/-- R63: an accepted command is well-formed and its operand word is the operand's value. -/
theorem assemble_wellFormed_and_value {mnemonic : String} {operand : AsmOperand} {i : Instr}
    (h : assemble mnemonic operand = some i) : i.wellFormed = true ∧ i.data.toNat = operand.value := by
  obtain ⟨row, member, w, placed, rfl⟩ := assemble_some h
  obtain ⟨wide, holds⟩ := asmTable_fieldIsUnreserved row member
  obtain ⟨data_eq, mask_eq⟩ := holds w
  obtain ⟨value, fits⟩ := placeOperand_value wide placed
  rw [Instr.wellFormed, data_eq, mask_eq]
  exact ⟨beq_iff_eq.mpr (and_allOnes_shiftLeft_eq_zero (value ▸ fits)), value⟩

/-- Settles O55: `assemble_wellFormed_and_value`, for each form of the operand. -/
theorem assembledCommandsAreLegal : Obligations.AssembledCommandsAreLegal := by
  intro mnemonic operand i accepted
  obtain ⟨legal, value⟩ := assemble_wellFormed_and_value accepted
  refine ⟨legal, ?_, ?_, ?_⟩
  · rintro rfl
    exact BitVec.eq_of_toNat_eq value
  · rintro n rfl
    exact value
  · rintro c rfl
    exact value

/-- Settles O56, by evaluating the assembler on the three lines. -/
theorem assemblerExamples : Obligations.AssemblerExamples := by
  unfold Obligations.AssemblerExamples
  decide

end Machine
end Sys2Proof
end

section
/-! PROOF. The arithmetic of the CRC (40_crc.md R79-R84): the table form of the byte step, linearity and the detection
of one changed bit, the residue. -/

namespace Sys2Proof.Machine

variable {x : Word}

/-! ### The table form of the byte step (R79) -/

theorem crcBit_of_even (h : x.getLsbD 0 = false) : crcBit x = x >>> 1 :=
  if_neg (Bool.eq_false_iff.mp h)

/-- R71: bit steps over clear bits only shift. -/
theorem crcBits_of_low_clear {n : Nat} (h : ∀ k < n, x.getLsbD k = false) : crcBits n x = x >>> n := by
  induction n generalizing x with
  | zero => exact (BitVec.ushiftRight_zero x).symm
  | succ n ih =>
    have shifted : ∀ k < n, (x >>> 1).getLsbD k = false := fun k hk => by
      rw [BitVec.getLsbD_ushiftRight]
      exact h _ (by omega)
    rw [crcBits, crcBit_of_even (h 0 n.succ_pos), ih shifted, ← BitVec.shiftRight_add, Nat.add_comm]

theorem setWidth_ushiftRight_eight (b : Byte) : b.setWidth 32 >>> 8 = 0#32 := by
  ext k hk
  simp

theorem crcStep8_eq_xor_crcTable (c : Word) (b : Byte) : crcStep8 c b = crcBits 8 c ^^^ crcTable b := by
  rw [crcTable, crcStep8, crcStep8, crcBits_xor, BitVec.zero_xor]

/-- R79: eight bit steps shift the upper bits down and look the low byte up. -/
theorem crcBits_eight (x : Word) : crcBits 8 x = x >>> 8 ^^^ crcTable (byteField x) := by
  have low_clear : ∀ k < 8, (x ^^^ (byteField x).setWidth 32).getLsbD k = false := fun k hk => by
    simp [byteField, hk, hk.trans (by decide : 8 < 32)]
  calc crcBits 8 x
      = crcBits 8 ((x ^^^ (byteField x).setWidth 32) ^^^ (byteField x).setWidth 32) := by
        rw [BitVec.xor_assoc, BitVec.xor_self, BitVec.xor_zero]
    _ = (x ^^^ (byteField x).setWidth 32) >>> 8 ^^^ crcTable (byteField x) := by
        rw [crcBits_xor, crcBits_of_low_clear low_clear, crcTable, crcStep8, BitVec.zero_xor]
    _ = x >>> 8 ^^^ crcTable (byteField x) := by
        rw [BitVec.ushiftRight_xor_distrib, setWidth_ushiftRight_eight, BitVec.xor_zero]

/-- Settles O38: `crcBits_eight` at the register XOR the byte, whose upper bits are the register's. -/
theorem crcTableForm : Obligations.CrcTableForm := by
  refine ⟨fun c b => ?_, by decide, by decide, by decide, by decide, by decide, by decide⟩
  rw [crcStep8, crcBits_eight, BitVec.ushiftRight_xor_distrib, setWidth_ushiftRight_eight, BitVec.xor_zero]
  rfl

/-! ### Linearity and one changed bit (R81) -/

/-- R81: the raw CRC is linear in the register and the bytes together. -/
theorem crcRaw_xor {bytes other : List Byte} (h : bytes.length = other.length) (c d : Word) :
    crcRaw (c ^^^ d) (List.zipWith (· ^^^ ·) bytes other) = crcRaw c bytes ^^^ crcRaw d other := by
  induction bytes generalizing other c d with
  | nil =>
    obtain rfl := List.eq_nil_of_length_eq_zero h.symm
    rfl
  | cons b rest ih =>
    cases other with
    | nil => cases h
    | cons e others =>
      rw [List.zipWith_cons_cons, crcRaw_cons, crcStep8_xor, ih (Nat.succ.inj h)]
      rfl

/-- R71: the polynomial has its top bit set, so a bit step leaves the bit it shifted out there. -/
theorem getLsbD_crcBit_top (x : Word) : (crcBit x).getLsbD 31 = x.getLsbD 0 := by
  cases low : x.getLsbD 0 with
  | false =>
    rw [crcBit_of_even low]
    simp
  | true =>
    rw [crcBit, if_pos low]
    simp

theorem crcBit_eq_zero (h : crcBit x = 0#32) : x = 0#32 := by
  have even : x.getLsbD 0 = false := by rw [← getLsbD_crcBit_top, h, BitVec.getLsbD_zero]
  have shifted : x >>> 1 = 0#32 := (crcBit_of_even even).symm.trans h
  apply BitVec.eq_of_getLsbD_eq
  intro k hk
  cases k with
  | zero => exact even
  | succ k =>
    have bit := congrArg (·.getLsbD k) shifted
    simpa [Nat.add_comm 1 k] using bit

theorem crcBit_injective : Function.Injective crcBit := by
  intro x y equal
  refine BitVec.xor_eq_zero_iff.mp (crcBit_eq_zero ?_)
  rw [crcBit_xor, equal, BitVec.xor_self]

theorem crcBits_injective (n : Nat) : Function.Injective (crcBits n) := by
  induction n with
  | zero => exact Function.injective_id
  | succ n ih => exact ih.comp crcBit_injective

/-- The register's old value can be told from the new one and the byte. -/
theorem crcStep8_injective (b : Byte) : Function.Injective (crcStep8 · b) :=
  fun _ _ equal => (BitVec.xor_left_inj _).mp (crcBits_injective 8 equal)

/-- The byte can be told from the old register and the new one. -/
theorem crcStep8_byte_injective (c : Word) : Function.Injective (crcStep8 c) := by
  intro b e equal
  have extended : b.setWidth 32 = e.setWidth 32 := (BitVec.xor_right_inj c).mp (crcBits_injective 8 equal)
  rw [← byteField_setWidth b, extended, byteField_setWidth]

theorem crcRaw_injective (bytes : List Byte) : Function.Injective (crcRaw · bytes) := by
  induction bytes with
  | nil => exact Function.injective_id
  | cons b rest ih => exact ih.comp (crcStep8_injective b)

/-- Settles O42: linearity is `crcRaw_xor` from one register value; a changed byte gives another register value, which
the bytes after it keep apart (`crcRaw_injective`). -/
theorem singleBitChangeIsDetected : Obligations.SingleBitChangeIsDetected := by
  constructor
  · intro c bytes other same_length
    rw [← crcRaw_xor same_length, BitVec.xor_self]
  · intro c before after b k hk equal
    have zero_ne_bit : ∀ k < 8, 0#8 ≠ 1#8 <<< k := by decide
    simp only [crcRaw_append, crcRaw_cons, BitVec.xor_left_inj] at equal
    have same_byte := crcStep8_byte_injective _ (crcRaw_injective after equal)
    have no_change := (BitVec.xor_right_inj b).mp (BitVec.xor_zero.trans same_byte)
    exact zero_ne_bit k hk no_change

/-! ### The residue (R84) -/

/-- Eight bit steps of the register XOR a word feed the word's low byte and leave the rest of the word to be fed. -/
theorem crcBits_eight_xor (c w : Word) : crcBits 8 (c ^^^ w) = crcStep8 c (byteField w) ^^^ w >>> 8 := by
  rw [crcBits_xor, crcBits_eight w, crcStep8_eq_xor_crcTable]
  ac_rfl

/-- R84: feeding a word least significant byte first is 32 bit steps of the register XOR the word. -/
theorem crcRaw_wordBytes_reverse (c w : Word) : crcRaw c (wordBytes w).reverse = crcBits 32 (c ^^^ w) := by
  have next_byte (k : Nat) : byteField (w >>> k) = w.extractLsb' k 8 := by
    ext j hj
    simp [byteField, hj.trans (by decide : 8 < 32)]
  have all_fed : w >>> 32 = 0#32 := BitVec.ushiftRight_eq_zero le_rfl
  have byte_by_byte : crcBits 32 (c ^^^ w) = crcBits 8 (crcBits 8 (crcBits 8 (crcBits 8 (c ^^^ w)))) := by
    rw [← crcBits_add, ← crcBits_add, ← crcBits_add]
  simp only [byte_by_byte, crcBits_eight_xor, ← BitVec.shiftRight_add, next_byte, Nat.reduceAdd, all_fed,
    BitVec.xor_zero]
  rfl

/-- Settles O43: fed least significant byte first, the finished CRC turns the register into all ones before its 32 bit
steps. In the big-endian order the empty sequence and a zero byte end differently. -/
theorem residueIsConstant : Obligations.ResidueIsConstant := by
  constructor
  · intro bytes
    have all_ones : crcRaw 0xFFFFFFFF#32 bytes ^^^ crc32 bytes = 0xFFFFFFFF#32 := by
      rw [crc32, ← BitVec.xor_assoc, BitVec.xor_self, BitVec.zero_xor]
    rw [crcRaw_append, crcRaw_wordBytes_reverse, all_ones]
    decide +kernel
  · rintro ⟨r, constant⟩
    have differ : crcRaw 0xFFFFFFFF#32 ([] ++ wordBytes (crc32 [])) ≠
        crcRaw 0xFFFFFFFF#32 ([0x00#8] ++ wordBytes (crc32 [0x00#8])) := by decide +kernel
    exact differ ((constant []).trans (constant [0x00#8]).symm)

end Sys2Proof.Machine
end

section
/-! PROOF. The commands of the CRC unit (40_crc.md R72-R83): the result of each, and the register along a sequence of
commands. -/

namespace Sys2Proof.Machine

variable {s t : State} {i : Instr}

/-! ### The result of each command (R75-R78) -/

/-- R118: a command of one outcome behind the check of the reserved bits. -/
theorem exec_eq_ite_reserved (h : i.data &&& i.reservedMask = 0#32 → Effect s i t) :
    exec i s = .next (if i.data &&& i.reservedMask = 0#32 then t else raise .reservedBits i.data s) := by
  split
  · exact (h ‹_›).exec_eq
  · exact (Effect.reserved ‹_›).exec_eq

/-- R58: the mask of a command without operand reserves every bit. -/
theorem and_fullMask (data : Word) : data &&& 0xFFFFFFFF#32 = data := BitVec.and_allOnes

/-- Settles O13: the mask reserves every bit, so the check is that the operand word is 0. -/
theorem crcInitResult : Obligations.CrcInitResult := by
  intro data s
  refine ⟨decode_encode (.crcInit data), ?_⟩
  have result := exec_eq_ite_reserved (s := s) (i := .crcInit data) .crcInit
  rwa [Instr.data, Instr.reservedMask, and_fullMask] at result

/-- Settles O14: the byte is fed behind the check of the reserved bits. -/
theorem crcByteResult : Obligations.CrcByteResult :=
  fun data _ => ⟨decode_encode (.crcB data), exec_eq_ite_reserved .crcB⟩

/-- Settles O15: no bit of the operand word is reserved. -/
theorem crcWordResult : Obligations.CrcWordResult :=
  fun data _ => ⟨decode_encode (.crcW data), Effect.crcW.exec_eq⟩

/-- Settles O16: one case for each outcome of the comparison. -/
theorem crcCheckResult : Obligations.CrcCheckResult := by
  intro data s
  refine ⟨decode_encode (.crcChk data), ?_⟩
  split
  · exact (Effect.crcMatch ‹_›).exec_eq
  · exact (Effect.crcMismatch ‹_›).exec_eq

/-! ### The register along a sequence of commands (R72, R80, R83) -/

/-- R21, R73: of the commands that feed nothing, only CRC.INIT changes the register. -/
theorem Effect.crcState_of_fedBytes_nil (h : Effect s i t) (other : ∀ data, i ≠ .crcInit data)
    (silent : fedBytes i = []) : t.crcState = s.crcState := by
  cases h with
  | crcInit => exact absurd rfl (other _)
  | crcB legal =>
    rw [fedBytes_crcB legal] at silent
    cases silent
  | crcW => cases silent
  | _ => rfl

/-- R80: every command but CRC.INIT feeds its bytes to the register, if it has any, and does nothing else to it. -/
theorem Effect.crcState_eq (h : Effect s i t) (other : ∀ data, i ≠ .crcInit data) :
    t.crcState = crcRaw s.crcState (fedBytes i) := by
  by_cases silent : fedBytes i = []
  · rw [h.crcState_of_fedBytes_nil other silent, silent, crcRaw_nil]
  · obtain rfl := Host.Outcome.next.inj (h.exec_eq.symm.trans (exec_of_feeding silent s))
    rfl

/-- Settles O39, by induction on the commands: the first feeds its bytes, the rest feed theirs. -/
theorem crcFollowsFedBytes : Obligations.CrcFollowsFedBytes := by
  intro commands
  induction commands with
  | nil => exact fun s _ => ⟨s, rfl, rfl⟩
  | cons i rest ih =>
    intro s others
    obtain ⟨other, others⟩ := List.forall_mem_cons.mp others
    obtain ⟨t, run, register⟩ := ih (afterCommand i s) others
    have first := (exec_effect (exec_eq_next i s)).crcState_eq other
    exact ⟨t, (execAll_cons ..).trans run, by rw [register, first, List.flatMap_cons, crcRaw_append]⟩

theorem fedBytes_crcB_setWidth_ne_nil (b : Byte) : fedBytes (.crcB (b.setWidth 32)) ≠ [] := by
  rw [fedBytes_crcB_setWidth]
  exact List.cons_ne_nil _ _

/-- Settles O40: CRC.INIT, then the commands by `execAll_of_feeding`, from any state. -/
theorem initThenFeedGivesChecksum : Obligations.InitThenFeedGivesChecksum := by
  refine ⟨fun commands s legal => ?_, BitVec.xor_self⟩
  have feeding : ∀ i ∈ commands, fedBytes i ≠ [] := by
    intro i member
    obtain ⟨b, rfl⟩ | ⟨w, rfl⟩ := legal i member
    · exact fedBytes_crcB_setWidth_ne_nil b
    · exact List.cons_ne_nil _ _
  rw [execAll, exec_crcInit]
  exact ⟨_, execAll_of_feeding feeding _, rfl⟩

/-- Settles O41: both sides feed `wordBytes w` (`execAll_of_feeding`). -/
theorem crcWordIsFourBytes : Obligations.CrcWordIsFourBytes := by
  intro w s
  rw [execAll_of_feeding, execAll_of_feeding]
  · simp only [List.flatMap_cons, fedBytes_crcB_setWidth]
    rfl
  · simp [fedBytes_crcB_setWidth_ne_nil]
  · simp [fedBytes_crcW, wordBytes]

end Sys2Proof.Machine
end

section
/-! PROOF. The mixing arithmetic (41_cipher.md R90): both functions are the true modulo, and they undo each other. -/

namespace Sys2Proof.Machine

variable {m p : Index}

theorem toNat_encIdx (hm : m.toNat < 106) (hp : p.toNat < 106) : (encIdx m p).toNat = (m.toNat + p.toNat) % 106 := by
  unfold encIdx
  dsimp only
  split <;> bv_omega

/-- R94's form: 106 is added first, so that the difference is a natural. -/
theorem toNat_decIdx (hm : m.toNat < 106) (hp : p.toNat < 106) :
    (decIdx m p).toNat = (m.toNat + 106 - p.toNat) % 106 := by
  unfold decIdx
  split <;> bv_omega

theorem encIdx_lt (hm : m.toNat < 106) (hp : p.toNat < 106) : (encIdx m p).toNat < 106 := by
  rw [toNat_encIdx hm hp]
  exact Nat.mod_lt _ (by decide)

theorem decIdx_lt (hm : m.toNat < 106) (hp : p.toNat < 106) : (decIdx m p).toNat < 106 := by
  rw [toNat_decIdx hm hp]
  exact Nat.mod_lt _ (by decide)

/-- R9, R92: the true modulo of the difference. -/
theorem toNat_decIdx_eq_emod (hm : m.toNat < 106) (hp : p.toNat < 106) :
    ((decIdx m p).toNat : Int) = ((m.toNat : Int) - (p.toNat : Int)) % 106 := by
  rw [toNat_decIdx hm hp]
  omega

theorem decIdx_encIdx (hm : m.toNat < 106) (hp : p.toNat < 106) : decIdx (encIdx m p) p = m := by
  apply BitVec.eq_of_toNat_eq
  rw [toNat_decIdx (encIdx_lt hm hp) hp, toNat_encIdx hm hp]
  omega

theorem encIdx_decIdx (hm : m.toNat < 106) (hp : p.toNat < 106) : encIdx (decIdx m p) p = m := by
  apply BitVec.eq_of_toNat_eq
  rw [toNat_encIdx (decIdx_lt hm hp) hp, toNat_decIdx hm hp]
  omega

theorem encIdx_zero (hm : m.toNat < 106) : encIdx m 0#7 = m := by
  apply BitVec.eq_of_toNat_eq
  rw [toNat_encIdx hm (by decide)]
  exact Nat.mod_eq_of_lt hm

theorem decIdx_zero (hm : m.toNat < 106) : decIdx m 0#7 = m := by
  apply BitVec.eq_of_toNat_eq
  rw [toNat_decIdx hm (by decide)]
  exact (Nat.add_mod_right ..).trans (Nat.mod_eq_of_lt hm)

/-- Settles O46, one lemma per law. -/
theorem mixingIsTrueModulo : Obligations.MixingIsTrueModulo :=
  fun _ _ hm hp =>
    ⟨toNat_encIdx hm hp, toNat_decIdx_eq_emod hm hp, decIdx_encIdx hm hp, encIdx_decIdx hm hp, encIdx_zero hm,
      decIdx_zero hm⟩

end Sys2Proof.Machine
end

section
/-! PROOF. The result of each command of the cipher unit (41_cipher.md R86-R96), its checks in the order of R122. -/

namespace Sys2Proof.Machine

variable {s : State} {i : Instr} {m p : Index}

/-! ### The checks, one case each (R118, R122, R85) -/

theorem exec_eq_ite_reservedBits {u : State} (h : i.data &&& i.reservedMask = 0#32 → exec i s = .next u) :
    exec i s = .next (if i.data &&& i.reservedMask ≠ 0#32 then raise .reservedBits i.data s else u) := by
  split
  · exact (Effect.reserved ‹_›).exec_eq
  · exact h (not_not.mp ‹_›)

theorem exec_eq_ite_emptyPassphrase {u : State} (mixing : isMixing i = true) (legal : i.data &&& i.reservedMask = 0#32)
    (h : s.klen ≠ 0 → exec i s = .next u) :
    exec i s = .next (if s.klen = 0 then raise .emptyPassphrase 0#32 s else u) := by
  split
  · exact (Effect.noKey mixing legal ‹_›).exec_eq
  · exact h ‹_›

theorem exec_eq_ite_badIndex {u : State} (mask : i.reservedMask = 0xFFFFFF80#32)
    (legal : i.data &&& i.reservedMask = 0#32) (loaded : isMixing i = true → s.klen ≠ 0)
    (h : (idxField i.data).toNat < 106 → exec i s = .next u) :
    exec i s = .next (if 106 ≤ (idxField i.data).toNat then raise .badIndex i.data s else u) := by
  split
  · exact (Effect.badIndex mask legal ‹_› loaded).exec_eq
  · exact h (Nat.lt_of_not_le ‹_›)

theorem exec_eq_match_unsupported {u : Index → State} (mask : i.reservedMask = 0xFFE00000#32)
    (legal : i.data &&& i.reservedMask = 0#32) (loaded : isMixing i = true → s.klen ≠ 0)
    (h : ∀ j, indexOf s.cfg (symField i.data) = some j → exec i s = .next (u j)) :
    exec i s = .next
      (match indexOf s.cfg (symField i.data) with
       | none => raise .unsupportedCharacter i.data s
       | some j => u j) := by
  cases found : indexOf s.cfg (symField i.data) with
  | none => exact (Effect.unsupported mask legal found loaded).exec_eq
  | some j => exact h j found

/-! ### The key commands (R86-R89) -/

/-- Settles O17: the mask reserves every bit, so the check is that the operand word is 0. -/
theorem keyClearResult : Obligations.KeyClearResult := by
  intro data s
  refine ⟨decode_encode (.keyClr data), s.keyEpoch + 1, ?_⟩
  have result := exec_eq_ite_reserved (s := s) (i := .keyClr data) .keyClr
  rwa [Instr.data, Instr.reservedMask, and_fullMask] at result

/-- Settles O20: the mask reserves every bit, so the check is that the operand word is 0. -/
theorem keyRestartResult : Obligations.KeyRestartResult := by
  intro data s
  refine ⟨decode_encode (.keyRst data), ?_⟩
  have result := exec_eq_ite_reserved (s := s) (i := .keyRst data) .keyRst
  rwa [Instr.data, Instr.reservedMask, and_fullMask] at result

/-- Settles O18: the checks in order, KeyFull last. -/
theorem keyPushResult : Obligations.KeyPushResult := by
  intro data s
  refine ⟨decode_encode (.keyPush data), exec_eq_ite_reservedBits fun legal =>
    exec_eq_ite_badIndex rfl legal nofun fun small => ?_⟩
  split
  · exact (Effect.keyFullIndex legal (checkIdx_of_lt small) ‹_›).exec_eq
  · exact (Effect.keyPush legal small ‹_›).exec_eq

/-- Settles O19: the checks in order, KeyFull last. -/
theorem keyPushSymbolResult : Obligations.KeyPushSymbolResult := by
  intro data s
  refine ⟨decode_encode (.keyPushs data), exec_eq_ite_reservedBits fun legal =>
    exec_eq_match_unsupported rfl legal nofun fun j found => ?_⟩
  split
  · exact (Effect.keyFullSymbol legal found ‹_›).exec_eq
  · exact (Effect.keyPushs legal found ‹_›).exec_eq

/-! ### The conversions (R95, R96) -/

/-- Settles O25. -/
theorem symbolToIndexResult : Obligations.SymbolToIndexResult :=
  fun data _ => ⟨decode_encode (.symIdx data), exec_eq_ite_reservedBits fun legal =>
    exec_eq_match_unsupported rfl legal nofun fun _ found => (Effect.symIdx legal found).exec_eq⟩

/-- Settles O26: an index below 106 has the alphabet's symbol. -/
theorem indexToSymbolResult : Obligations.IndexToSymbolResult := by
  intro data s
  refine ⟨decode_encode (.idxSym data), exec_eq_ite_reservedBits fun legal => ?_⟩
  split
  case isTrue small =>
    rw [← symbolAt_of_lt small]
    exact (Effect.idxSym legal small).exec_eq
  case isFalse big => exact (Effect.badIndex rfl legal (Nat.le_of_not_lt big) nofun).exec_eq

/-! ### The mixing commands (R91-R94) -/

/-- R27: with a key loaded, the position is at an entry in use. -/
theorem State.Inv.kpos_lt (h : s.Inv) (loaded : s.klen ≠ 0) : s.kpos < s.klen := by
  have position := keyPosition_iff.mp h.key_position
  omega

theorem State.Inv.keyEntry_eq_getD (h : s.Inv) {j : Nat} (used : j < s.klen) : keyEntry s j = s.key.getD j 0#7 := by
  have stored : j < s.key.length := by
    rw [h.key_length]
    exact used.trans_le h.klen_le
  rw [keyEntry_of_lt used stored, List.getD_eq_getElem _ _ stored]

/-- R24: a command reads an index. -/
theorem State.Inv.keyEntry_lt (h : s.Inv) {j : Nat} (used : j < s.klen) : (keyEntry s j).toNat < 106 := by
  have in_use : j < s.entries.length := h.entries_length ▸ used
  rw [keyEntry_of_entries in_use]
  exact h.key_entries _ (List.getElem_mem in_use)

theorem indexResult_encIdx (c : Config) (hm : m.toNat < 106) (hp : p.toNat < 106) :
    indexResult c (encIdx m p) = BitVec.ofNat 32 ((m.toNat + p.toNat) % 106) := by
  rw [← toNat_encIdx hm hp, BitVec.ofNat_toNat, indexResult]

theorem indexResult_decIdx (c : Config) (hm : m.toNat < 106) (hp : p.toNat < 106) :
    indexResult c (decIdx m p) = BitVec.ofInt 32 (((m.toNat : Int) - (p.toNat : Int)) % 106) := by
  rw [← toNat_decIdx_eq_emod hm hp, BitVec.ofInt_natCast, BitVec.ofNat_toNat, indexResult]

theorem symbolResult_encIdx (c : Config) (hm : m.toNat < 106) (hp : p.toNat < 106) :
    symbolResult c (encIdx m p) =
      (c.alphabet[(m.toNat + p.toNat) % 106]'(Nat.mod_lt _ (Nat.succ_pos 105))).setWidth 32 := by
  simp only [symbolResult, symbolAt_of_lt (encIdx_lt hm hp), toNat_encIdx hm hp]

theorem symbolResult_decIdx (c : Config) (hm : m.toNat < 106) (hp : p.toNat < 106) :
    symbolResult c (decIdx m p) =
      (c.alphabet[(m.toNat + 106 - p.toNat) % 106]'(Nat.mod_lt _ (Nat.succ_pos 105))).setWidth 32 := by
  simp only [symbolResult, symbolAt_of_lt (decIdx_lt hm hp), toNat_decIdx hm hp]

/-- R91-R94: a mixing command whose checks pass, in a legal state: the entry mixed in is an index. -/
theorem State.Inv.exec_mixing {mix : Index → Index → Index} {result : Config → Index → Word} {v : Word} (inv : s.Inv)
    (loaded : s.klen ≠ 0) (effect : Effect s i (Machine.cipherStep mix result m s))
    (value : (s.key.getD s.kpos 0#7).toNat < 106 → result s.cfg (mix m (s.key.getD s.kpos 0#7)) = v) :
    exec i s = .next { s with err := 0#4, res := v, kpos := (s.kpos + 1) % s.klen } := by
  have used := inv.kpos_lt loaded
  have small := inv.keyEntry_lt used
  rw [inv.keyEntry_eq_getD used] at small
  rw [effect.exec_eq, cipherStep_eq, inv.keyEntry_eq_getD used, value small]

/-- Settles O21: the checks in order, then the sum of the mixing (`toNat_encIdx`). -/
theorem encryptIndexResult : Obligations.EncryptIndexResult :=
  fun data _ inv => ⟨decode_encode (.enc data), exec_eq_ite_reservedBits fun legal =>
    exec_eq_ite_emptyPassphrase rfl legal fun loaded =>
      exec_eq_ite_badIndex rfl legal (fun _ => loaded) fun small =>
        inv.exec_mixing loaded (.enc legal loaded small) (indexResult_encIdx _ small)⟩

/-- Settles O22: the checks in order, then the true modulo of the difference (`toNat_decIdx_eq_emod`). -/
theorem decryptIndexResult : Obligations.DecryptIndexResult :=
  fun data _ inv => ⟨decode_encode (.dec data), exec_eq_ite_reservedBits fun legal =>
    exec_eq_ite_emptyPassphrase rfl legal fun loaded =>
      exec_eq_ite_badIndex rfl legal (fun _ => loaded) fun small =>
        inv.exec_mixing loaded (.dec legal loaded small) (indexResult_decIdx _ small)⟩

/-- Settles O23: the checks in order, then the symbol at the sum. -/
theorem encryptSymbolResult : Obligations.EncryptSymbolResult :=
  fun data _ inv => ⟨decode_encode (.encs data), exec_eq_ite_reservedBits fun legal =>
    exec_eq_ite_emptyPassphrase rfl legal fun loaded =>
      exec_eq_match_unsupported rfl legal (fun _ => loaded) fun _ found =>
        inv.exec_mixing loaded (.encs legal loaded found) (symbolResult_encIdx _ (indexOf_lt found))⟩

/-- Settles O24: the checks in order, then the symbol at the difference. -/
theorem decryptSymbolResult : Obligations.DecryptSymbolResult :=
  fun data _ inv => ⟨decode_encode (.decs data), exec_eq_ite_reservedBits fun legal =>
    exec_eq_ite_emptyPassphrase rfl legal fun loaded =>
      exec_eq_match_unsupported rfl legal (fun _ => loaded) fun _ found =>
        inv.exec_mixing loaded (.decs legal loaded found) (symbolResult_decIdx _ (indexOf_lt found))⟩

end Sys2Proof.Machine
end

section
/-! PROOF. Pushing an entry and converting characters (41_cipher.md R87, R100), and the key position along a sequence of
commands (R101). -/

namespace Sys2Proof.Machine

variable {s t : State} {i : Instr}

/-! ### A pushed entry (R87, R24) -/

theorem keyEntry_pushEntry_same (x : Index) (stored : s.klen < s.key.length) :
    keyEntry { s with key := s.key.set s.klen x, klen := s.klen + 1 } s.klen = x := by
  rw [keyEntry_of_lt (Nat.lt_succ_self _) (by simpa using stored)]
  exact List.getElem_set_self _

theorem keyEntry_pushEntry_below (x : Index) {j : Nat} (used : j < s.klen) (stored : j < s.key.length) :
    keyEntry { s with key := s.key.set s.klen x, klen := s.klen + 1 } j = keyEntry s j := by
  rw [keyEntry_of_lt (used.trans (Nat.lt_succ_self _)) (by simpa using stored), keyEntry_of_lt used stored]
  exact List.getElem_set_ne used.ne' _

/-- Settles O47: the push writes entry klen, which is within the buffer. -/
theorem pushedEntryReadsBack : Obligations.PushedEntryReadsBack := by
  intro s x inv small room
  have stored : s.klen < s.key.length := inv.key_length ▸ room
  exact ⟨_, exec_keyPush_room small room.ne, keyEntry_pushEntry_same x stored, rfl, rfl,
    fun j used => keyEntry_pushEntry_below x used (used.trans stored)⟩

/-! ### Characters and indices (R95, R96, R100) -/

theorem symField_setWidth (c : Sym) : symField (c.setWidth 32) = c := extractLsb'_setWidth (by decide)

theorem exec_idxSym {x : Index} (small : x.toNat < 106) :
    exec (.idxSym (x.setWidth 32)) s = .next (done (setResult (symbolResult s.cfg x) s)) := by
  have legal : x.setWidth 32 &&& 0xFFFFFF80#32 = 0#32 := setWidth_and_allOnes_shiftLeft (n := 7) (by decide)
  have result := (Effect.idxSym (s := s) legal (by rwa [idxField_setWidth])).exec_eq
  rwa [idxField_setWidth] at result

theorem exec_symIdx {c : Sym} {x : Index} (found : indexOf s.cfg c = some x) :
    exec (.symIdx (c.setWidth 32)) s = .next (done (setResult (indexResult s.cfg x) s)) := by
  have legal : c.setWidth 32 &&& 0xFFE00000#32 = 0#32 := setWidth_and_allOnes_shiftLeft (n := 21) (by decide)
  exact (Effect.symIdx legal (by rwa [symField_setWidth])).exec_eq

theorem indexOf_symbolAt {c : Config} (legal : c.legal = true) {x : Index} (small : x.toNat < 106) :
    indexOf c (symbolAt c x) = some x := by
  rw [symbolAt_of_lt small, indexOf_getElem legal small]

theorem symbolAt_of_indexOf {c : Config} {sym : Sym} {x : Index} (found : indexOf c sym = some x) :
    symbolAt c x = sym := by
  obtain ⟨small, symbol⟩ := indexOf_some found
  rw [symbolAt_of_lt small, symbol]

theorem exists_indexOf {c : Config} {sym : Sym} (member : sym ∈ c.alphabet.toList) : ∃ x, indexOf c sym = some x :=
  Option.ne_none_iff_exists'.mp fun missing => indexOf_none_iff.mp missing member

/-- Settles O51: each command looks up in the alphabet what the other one wrote. -/
theorem characterConversionInverts : Obligations.CharacterConversionInverts := by
  constructor
  · intro s c _ member
    obtain ⟨x, found⟩ := exists_indexOf member
    refine ⟨_, _, exec_symIdx found, exec_idxSym (indexOf_lt found), rfl, ?_⟩
    exact congrArg (·.setWidth 32) (symbolAt_of_indexOf found)
  · intro s x inv small
    exact ⟨_, _, exec_idxSym small, exec_symIdx (indexOf_symbolAt inv.cfg_legal small), rfl, rfl⟩

/-! ### The position counts successful mixes (R101) -/

/-- R101: a command other than the key commands keeps the passphrase's length and advances the position if it is a mixing
command and succeeds. -/
theorem Effect.klen_and_kpos (h : Effect s i t) (other : isKeyCommand i = false) (used : s.kpos < s.klen) :
    t.klen = s.klen ∧ t.kpos = (s.kpos + if isMixing i = true ∧ t.err = 0#4 then 1 else 0) % s.klen := by
  have stays : s.kpos = (s.kpos + 0) % s.klen := (Nat.mod_eq_of_lt used).symm
  cases h with
  | enc | dec | encs | decs => exact ⟨rfl, rfl⟩
  | reserved | noKey | badIndex | unsupported =>
    rw [raise_err, if_neg fun success => ErrorKind.code_ne_zero _ success.2]
    exact ⟨rfl, stays⟩
  | keyClr | keyRst | keyPush | keyPushs | keyFullIndex | keyFullSymbol => cases other
  | _ => exact ⟨rfl, stays⟩

theorem successfulMixes_cons (i : Instr) (rest : List Instr) (s : State) :
    successfulMixes (i :: rest) s =
      (if isMixing i = true ∧ (afterCommand i s).err = 0#4 then 1 else 0) + successfulMixes rest (afterCommand i s) := by
  rw [successfulMixes, exec_eq_next]

/-- R101 from any position within the passphrase, by induction on the commands. -/
theorem execAll_klen_and_kpos {commands : List Instr} (others : ∀ i ∈ commands, isKeyCommand i = false)
    (used : s.kpos < s.klen) :
    ∃ t, execAll commands s = .next t ∧ t.klen = s.klen ∧
      t.kpos = (s.kpos + successfulMixes commands s) % s.klen := by
  induction commands generalizing s with
  | nil => exact ⟨s, rfl, rfl, (Nat.mod_eq_of_lt used).symm⟩
  | cons i rest ih =>
    obtain ⟨other, others⟩ := List.forall_mem_cons.mp others
    obtain ⟨klen, kpos⟩ := (exec_effect (exec_eq_next i s)).klen_and_kpos other used
    have still_used : (afterCommand i s).kpos < (afterCommand i s).klen := by
      rw [klen, kpos]
      exact Nat.mod_lt _ (Nat.zero_lt_of_lt used)
    obtain ⟨t, run, t_klen, t_kpos⟩ := ih others still_used
    refine ⟨t, (execAll_cons ..).trans run, t_klen.trans klen, ?_⟩
    rw [t_kpos, klen, kpos, Nat.mod_add_mod, successfulMixes_cons, Nat.add_assoc]

/-- Settles O52: `execAll_klen_and_kpos` from position 0. -/
theorem positionCountsSuccessfulMixes : Obligations.PositionCountsSuccessfulMixes := by
  intro commands s loaded start others
  have run := execAll_klen_and_kpos others (start.trans_lt loaded)
  rwa [start, Nat.zero_add] at run

end Sys2Proof.Machine
end

section
/-! PROOF. A message mixed with the key (41_cipher.md R91-R94): the commands that mix have one shape, and the entry each
of them uses is known from the start. -/

namespace Sys2Proof.Machine

variable {s t : State} {mix : Index → Index → Index} {result : Config → Index → Word} {command : Word → Instr}

/-- R91-R94: in a legal state with a key, `command` of an index, written as its results are, mixes it by `mix`. -/
def Mixes (command : Word → Instr) (mix : Index → Index → Index) (result : Config → Index → Word) : Prop :=
  ∀ (s : State) (x : Index), s.Inv → s.klen ≠ 0 → x.toNat < 106 →
    exec (command (result s.cfg x)) s = .next (cipherStep mix result x s)

theorem mixes_of_index_effect
    (effect : ∀ (s : State) (data : Word), data &&& 0xFFFFFF80#32 = 0#32 → s.klen ≠ 0 → (idxField data).toNat < 106 →
      Effect s (command data) (cipherStep mix indexResult (idxField data) s)) : Mixes command mix indexResult := by
  intro s x _ loaded small
  have legal : x.setWidth 32 &&& 0xFFFFFF80#32 = 0#32 := setWidth_and_allOnes_shiftLeft (n := 7) (by decide)
  have result := (effect s (x.setWidth 32) legal loaded (by rwa [idxField_setWidth])).exec_eq
  rwa [idxField_setWidth] at result

theorem mixes_of_symbol_effect
    (effect : ∀ (s : State) (data : Word) (x : Index), data &&& 0xFFE00000#32 = 0#32 → s.klen ≠ 0 →
      indexOf s.cfg (symField data) = some x → Effect s (command data) (cipherStep mix symbolResult x s)) :
    Mixes command mix symbolResult := by
  intro s x inv loaded small
  have legal : symbolResult s.cfg x &&& 0xFFE00000#32 = 0#32 :=
    setWidth_and_allOnes_shiftLeft (n := 21) (by decide)
  refine (effect s _ x legal loaded ?_).exec_eq
  rw [symbolResult, symField_setWidth, indexOf_symbolAt inv.cfg_legal small]

theorem mixes_enc : Mixes .enc encIdx indexResult := mixes_of_index_effect fun _ _ => .enc

theorem mixes_dec : Mixes .dec decIdx indexResult := mixes_of_index_effect fun _ _ => .dec

theorem mixes_encs : Mixes .encs encIdx symbolResult := mixes_of_symbol_effect fun _ _ _ => .encs

theorem mixes_decs : Mixes .decs decIdx symbolResult := mixes_of_symbol_effect fun _ _ _ => .decs

/-- R26: the key entry that the `k`-th successful mix from here on uses. -/
def State.entryFor (s : State) (k : Nat) : Index := keyEntry s ((s.kpos + k) % s.klen)

theorem entryFor_zero (used : s.kpos < s.klen) : s.entryFor 0 = keyEntry s s.kpos := by
  rw [State.entryFor, Nat.add_zero, Nat.mod_eq_of_lt used]

theorem entryFor_of_start (start : s.kpos = 0) (k : Nat) : s.entryFor k = keyEntry s (k % s.klen) := by
  rw [State.entryFor, start, Nat.zero_add]

/-- R91-R94: a mix uses up one entry. -/
theorem cipherStep_entryFor (x : Index) (k : Nat) : (cipherStep mix result x s).entryFor k = s.entryFor (k + 1) := by
  have position : ((s.kpos + 1) % s.klen + k) % s.klen = (s.kpos + (k + 1)) % s.klen := by
    rw [Nat.mod_add_mod, Nat.add_assoc, Nat.add_comm 1 k]
  exact congrArg (keyEntry s) position

/-- The indices that mixing these message indices, one after the other, gives. -/
def State.mixed (s : State) (mix : Index → Index → Index) (m : List Index) : List Index :=
  m.mapIdx fun k x => mix x (s.entryFor k)

theorem mixed_cons (used : s.kpos < s.klen) (x : Index) (rest : List Index) :
    s.mixed mix (x :: rest) = mix x (keyEntry s s.kpos) :: (cipherStep mix result x s).mixed mix rest := by
  simp only [State.mixed, List.mapIdx_cons, cipherStep_entryFor, entryFor_zero used]

theorem mixed_of_start (start : s.kpos = 0) (m : List Index) :
    s.mixed mix m = m.mapIdx fun k x => mix x (keyEntry s (k % s.klen)) := by
  simp only [State.mixed, entryFor_of_start start]

/-- R97: with passphrase `p` just loaded, the `k`-th index is mixed with `p`'s entry at `k` modulo its length. -/
theorem mixed_of_loaded {p : List Index} (start : s.kpos = 0) (length : s.klen = p.length) (nonempty : p ≠ [])
    (entries : ∀ (j : Nat) (h : j < p.length), keyEntry s j = p[j]) (m : List Index) :
    s.mixed mix m = m.mapIdx fun k x => mix x (p.getD (k % p.length) 0#7) := by
  have entry (k : Nat) : keyEntry s (k % p.length) = p.getD (k % p.length) 0#7 := by
    rw [entries _ (Nat.mod_lt _ (List.length_pos_of_ne_nil nonempty)), List.getD_eq_getElem]
  simp only [mixed_of_start start, length, entry]

/-- Two ways of mixing that agree on indices agree on a message of indices. -/
theorem mapIdx_congr_of_small {f g : Nat → Index → Index} {m : List Index} (small : ∀ x ∈ m, x.toNat < 106)
    (agree : ∀ k x, x.toNat < 106 → f k x = g k x) : m.mapIdx f = m.mapIdx g :=
  List.mapIdx_eq_mapIdx_iff.mpr fun k hk => agree k m[k] (small _ (List.getElem_mem hk))

end Sys2Proof.Machine
end

section
/-! PROOF. The host's transactions of 41_cipher.md R97, R98: loading the passphrase, then a command and a read of RES for
each index. -/

namespace Sys2Proof.Machine

variable {s t : State} {i : Instr}

/-! ### Commands issued one after the other -/

/-- R41: no command reads or writes the host's further transactions: whatever they are, the same case of `Effect` holds,
by the same checks. -/
theorem Effect.replace_host (h : Effect s i t) (host : List Transaction) :
    Effect { s with host := host } i { t with host := host } := by
  cases h <;> constructor <;> assumption

theorem exec_set_host (i : Instr) (s : State) (host : List Transaction) :
    exec i { s with host := host } = .next { afterCommand i s with host := host } :=
  ((exec_effect (exec_eq_next i s)).replace_host host).exec_eq

theorem execAll_keeps_environment {commands : List Instr} (h : execAll commands s = .next t) :
    t.host = s.host ∧ t.observed = s.observed ∧ t.cfg = s.cfg := by
  induction commands generalizing s with
  | nil =>
    cases h
    exact ⟨rfl, rfl, rfl⟩
  | cons i rest ih =>
    rw [execAll_cons] at h
    obtain ⟨host, observed, cfg⟩ := ih h
    obtain ⟨host', observed', cfg'⟩ := (exec_effect (exec_eq_next i s)).keeps_environment
    exact ⟨host.trans host', observed.trans observed', cfg.trans cfg'⟩

theorem run_succ (n : Nat) (h : step s = .next t) :
    Host.Core.run Sys2Proof.core (n + 1) s = Host.Core.run Sys2Proof.core n t := by
  have h : Sys2Proof.core.step s = .next t := h
  simp only [Host.Core.run, h]

/-- R41, R60: a step on an issued command is that command's meaning. -/
theorem step_issue_encode {rest : List Transaction} (h : s.host = .issue (encode i) :: rest) :
    step s = exec i { s with host := rest } :=
  (step_issue h).trans (issue_command (decode_encode i))

/-- R43: the host's run of commands is their sequence, one step each. -/
theorem run_issueAll {commands : List Instr} {rest : List Transaction} (n : Nat)
    (h : execAll commands { s with host := rest } = .next t) :
    Host.Core.run Sys2Proof.core (commands.length + n) { s with host := issueAll commands ++ rest } =
      Host.Core.run Sys2Proof.core n t := by
  induction commands generalizing s with
  | nil =>
    cases h
    rw [List.length_nil, Nat.zero_add]
    rfl
  | cons i others ih =>
    rw [execAll, exec_set_host] at h
    have first : step { s with host := issueAll (i :: others) ++ rest } =
        .next { afterCommand i s with host := issueAll others ++ rest } :=
      (step_issue_encode rfl).trans (exec_set_host i s _)
    rw [List.length_cons, Nat.add_right_comm, run_succ _ first, ih h]

/-! ### A message, RES read after each command -/

/-- R97, R154: a command and the read of RES after it take two steps. -/
theorem run_issue_read {tail : List Transaction} (n : Nat)
    (h : exec i { s with host := .read 1#3 :: tail } = .next t) :
    Host.Core.run Sys2Proof.core (n + 2) { s with host := .issue (encode i) :: .read 1#3 :: tail } =
      Host.Core.run Sys2Proof.core n (observe 1#3 { t with host := tail }) := by
  obtain ⟨still_host, -⟩ := (exec_effect h).keeps_environment
  have issued : step { s with host := .issue (encode i) :: .read 1#3 :: tail } = .next t :=
    (step_issue_encode rfl).trans h
  exact (run_succ (n + 1) issued).trans (run_succ n (step_read still_host))

/-- R97, R98: the values read after each command of a message are the mixed indices as results. -/
theorem run_issueReadRes {mix : Index → Index → Index} {result : Config → Index → Word} {command : Word → Instr}
    {m : List Index} {rest : List Transaction} (mixes : Mixes command mix result) (inv : s.Inv) (loaded : s.klen ≠ 0)
    (small : ∀ x ∈ m, x.toNat < 106) :
    ∃ t, Host.Core.run Sys2Proof.core (2 * m.length)
        { s with host := issueReadRes (m.map fun x => command (result s.cfg x)) ++ rest } = .next t ∧
      t.host = rest ∧ t.observed = s.observed ++ (s.mixed mix m).map (result s.cfg) := by
  induction m generalizing s with
  | nil => exact ⟨_, rfl, rfl, (List.append_nil _).symm⟩
  | cons x others ih =>
    obtain ⟨small, others_small⟩ := List.forall_mem_cons.mp small
    have mixed (tail : List Transaction) :=
      mixes { s with host := .read 1#3 :: tail } x (inv.set_unconstrained _ _ _ _ _) loaded small
    have next_inv := (exec_effect (mixes s x inv loaded small)).keeps_inv inv
    obtain ⟨t, run, t_host, t_observed⟩ :=
      ih (s := observe 1#3 (cipherStep mix result x s)) (next_inv.set_unconstrained _ _ _ _ _) loaded others_small
    refine ⟨t, (run_issue_read _ (mixed _)).trans run, t_host, ?_⟩
    rw [t_observed, mixed_cons (inv.kpos_lt loaded) x others (result := result), List.map_cons]
    exact List.append_assoc ..

/-- R67, R97: the passphrase loaded, then the message: the values read are the message mixed with the passphrase. -/
theorem run_keySetI_message {mix : Index → Index → Index} {command : Word → Instr} {p m : List Index}
    (mixes : Mixes command mix indexResult) (rest : List Transaction) (inv : s.Inv) (nonempty : p ≠ [])
    (fits : p.length ≤ s.cfg.kmax) (p_small : ∀ x ∈ p, x.toNat < 106) (m_small : ∀ x ∈ m, x.toNat < 106) :
    ∃ t, Host.Core.run Sys2Proof.core (p.length + 1 + 2 * m.length)
        { s with host := issueAll (keySetI p) ++ issueReadRes (m.map fun x => command (x.setWidth 32)) ++ rest } =
          .next t ∧
      t.host = rest ∧
      t.observed = s.observed ++
        (m.mapIdx fun k x => mix x (p.getD (k % p.length) 0#7)).map fun x => x.setWidth 32 := by
  obtain ⟨u, load, u_inv, klen, kpos, -, entries⟩ :=
    keySetLoadsPassphrase { s with host := issueReadRes (m.map fun x => command (x.setWidth 32)) ++ rest } p
      (inv.set_unconstrained _ _ _ _ _) fits p_small
  obtain ⟨u_host, u_observed, -⟩ := execAll_keeps_environment load
  have loaded : u.klen ≠ 0 := klen ▸ (List.length_pos_of_ne_nil nonempty).ne'
  obtain ⟨t, run, t_host, t_observed⟩ := run_issueReadRes (rest := rest) mixes u_inv loaded m_small
  have mixed_eq := mixed_of_loaded (mix := mix) kpos klen nonempty entries m
  have length_eq : (keySetI p).length = p.length + 1 := by simp [keySetI]
  have u_eq : u = { u with host := issueReadRes (m.map fun x => command (x.setWidth 32)) ++ rest } :=
    congrArg (fun host => { u with host := host }) u_host
  refine ⟨t, ?_, t_host, ?_⟩
  · rw [List.append_assoc, ← length_eq]
    exact (run_issueAll _ load).trans ((congrArg _ u_eq).trans run)
  · rw [t_observed, u_observed, mixed_eq]
    rfl

/-! ### The document's functions -/

theorem getD_small {p : List Index} (small : ∀ x ∈ p, x.toNat < 106) (k : Nat) : (p.getD k 0#7).toNat < 106 := by
  rw [List.getD_eq_getElem?_getD]
  cases h : p[k]? with
  | none => decide
  | some x => exact small x (List.mem_of_getElem? h)

/-- R97: the document's encrypt mixes by EncIdx. -/
theorem encryptIndices_eq {m p : List Index} (m_small : ∀ x ∈ m, x.toNat < 106) (p_small : ∀ x ∈ p, x.toNat < 106) :
    encryptIndices m p = m.mapIdx fun k x => encIdx x (p.getD (k % p.length) 0#7) := by
  refine mapIdx_congr_of_small m_small fun k x small => ?_
  rw [passAt, ← toNat_encIdx small (getD_small p_small _), BitVec.ofNat_toNat, BitVec.setWidth_eq]

/-- R98: the document's decrypt mixes by DecIdx. -/
theorem decryptIndices_eq {m p : List Index} (m_small : ∀ x ∈ m, x.toNat < 106) (p_small : ∀ x ∈ p, x.toNat < 106) :
    decryptIndices m p = m.mapIdx fun k x => decIdx x (p.getD (k % p.length) 0#7) := by
  refine mapIdx_congr_of_small m_small fun k x small => ?_
  rw [passAt, ← toNat_decIdx_eq_emod small (getD_small p_small _), Int.toNat_natCast, BitVec.ofNat_toNat,
    BitVec.setWidth_eq]

/-- Settles O49: both runs by `run_keySetI_message`. -/
theorem messageIsDocumentFunction : Obligations.MessageIsDocumentFunction := by
  intro s p m rest inv nonempty fits p_small m_small
  rw [encryptIndices_eq m_small p_small, decryptIndices_eq m_small p_small]
  exact ⟨run_keySetI_message mixes_enc rest inv nonempty fits p_small m_small,
    run_keySetI_message mixes_dec rest inv nonempty fits p_small m_small⟩

end Sys2Proof.Machine
end

section
/-! PROOF. The host protocol over a message (70_reset_and_hazards.md R150), and the round trip with the same key
(41_cipher.md R99). -/

namespace Sys2Proof.Machine

variable {s t u : State} {mix : Index → Index → Index} {command : Word → Instr}

/-! ### One command of the host (R150, R151) -/

/-- R22: the low four bits of STATUS are ERR. -/
theorem statusWord_err (s : State) : (statusWord s).extractLsb' 0 4 = s.err := BitVec.extractLsb'_append_eq_right

theorem hostIssue_ok {i : Instr} (h : exec i s = .next t) (ok : t.err = 0#4) : hostIssue i s = (.ok (), t) := by
  rw [hostIssue, issue_command (decode_encode i), h]
  simp only [readPort_status, statusWord_err, ok, if_true]

/-! ### The same key in another state -/

/-- `t` has the parameters of `s`, and the commands read the same key in both. -/
structure SameKey (s t : State) : Prop where
  cfg_eq : t.cfg = s.cfg
  klen_eq : t.klen = s.klen
  entries_eq : keyEntry t = keyEntry s

theorem SameKey.refl (s : State) : SameKey s s := ⟨rfl, rfl, rfl⟩

theorem SameKey.trans (h : SameKey s t) (h' : SameKey t u) : SameKey s u :=
  ⟨h'.cfg_eq.trans h.cfg_eq, h'.klen_eq.trans h.klen_eq, h'.entries_eq.trans h.entries_eq⟩

theorem cipherStep_sameKey (result : Config → Index → Word) (x : Index) (s : State) :
    SameKey s (cipherStep mix result x s) := ⟨rfl, rfl, rfl⟩

theorem keyRst_sameKey (s : State) : SameKey s (done { s with kpos := 0 }) := ⟨rfl, rfl, rfl⟩

/-! ### A message through the host -/

theorem hostMessage_cons {c : Sym} {rest : List Sym} {out : List Word}
    (first : hostIssue (command (c.setWidth 32)) s = (.ok (), t)) (others : hostMessage command rest t = (.ok out, u)) :
    hostMessage command (c :: rest) s = (.ok (t.res :: out), u) := by
  simp only [hostMessage, first, others, readPort_res]

/-- R150: each command succeeds, and the values read are the symbols of the mixed indices. -/
theorem hostMessage_mixes {m : List Index} (mixes : Mixes command mix symbolResult) (inv : s.Inv) (loaded : s.klen ≠ 0)
    (small : ∀ x ∈ m, x.toNat < 106) :
    ∃ t, hostMessage command (indicesToText s.cfg m) s = (.ok ((s.mixed mix m).map (symbolResult s.cfg)), t) ∧
      t.Inv ∧ SameKey s t := by
  induction m generalizing s with
  | nil => exact ⟨s, rfl, inv, .refl s⟩
  | cons x rest ih =>
    obtain ⟨small, rest_small⟩ := List.forall_mem_cons.mp small
    have mixed := mixes s x inv loaded small
    obtain ⟨t, run, t_inv, same⟩ := ih ((exec_effect mixed).keeps_inv inv) loaded rest_small
    refine ⟨t, ?_, t_inv, (cipherStep_sameKey ..).trans same⟩
    rw [mixed_cons (inv.kpos_lt loaded) x rest (result := symbolResult)]
    exact hostMessage_cons (hostIssue_ok mixed rfl) run

theorem exec_keyRst (s : State) : exec (.keyRst 0#32) s = .next (done { s with kpos := 0 }) :=
  (Effect.keyRst BitVec.zero_and).exec_eq

/-- R25: with a key loaded, the key length the host reads is not 0. -/
theorem readPort_klen_ne_zero (inv : s.Inv) (loaded : s.klen ≠ 0) : readPort 5#3 s ≠ 0#32 := by
  obtain ⟨-, kmax_le⟩ := kmax_bounds_of_legal inv.cfg_legal
  have klen_le := inv.klen_le
  intro zero
  have value := toNat_zext16 (n := s.klen) (by omega)
  rw [← readPort_klen, zero] at value
  exact loaded value.symm

/-- R150: a call with the key loaded before: from KEY.RST on, the message is mixed with the key from its start. -/
theorem hostCipherAgain_mixes {m : List Index} (mixes : Mixes command mix symbolResult) (inv : s.Inv)
    (loaded : s.klen ≠ 0) (small : ∀ x ∈ m, x.toNat < 106) :
    ∃ t, hostCipherAgain command (indicesToText s.cfg m) s =
        (.ok ((m.mapIdx fun k x => mix x (keyEntry s (k % s.klen))).map (symbolResult s.cfg)), t) ∧
      t.Inv ∧ SameKey s t := by
  have restart := hostIssue_ok (exec_keyRst s) rfl
  have restart_inv := (exec_effect (exec_keyRst s)).keeps_inv inv
  obtain ⟨t, run, t_inv, same⟩ := hostMessage_mixes mixes restart_inv loaded small
  refine ⟨t, ?_, t_inv, (keyRst_sameKey s).trans same⟩
  rw [hostCipherAgain, if_neg fun empty => readPort_klen_ne_zero inv loaded empty.2, hostIssueAll, restart]
  rw [mixed_of_start rfl] at run
  exact run

/-! ### The round trip (R99) -/

theorem exists_indices {c : Config} {message : List Sym} (member : ∀ x ∈ message, x ∈ c.alphabet.toList) :
    ∃ m : List Index, (∀ x ∈ m, x.toNat < 106) ∧ indicesToText c m = message := by
  induction message with
  | nil => exact ⟨[], nofun, rfl⟩
  | cons x rest ih =>
    obtain ⟨member, others⟩ := List.forall_mem_cons.mp member
    obtain ⟨j, found⟩ := exists_indexOf member
    obtain ⟨m, small, text⟩ := ih others
    refine ⟨j :: m, List.forall_mem_cons.mpr ⟨indexOf_lt found, small⟩, ?_⟩
    rw [indicesToText, List.map_cons, symbolAt_of_indexOf found, ← indicesToText, text]

/-- R29: the low 21 bits of a symbol result are the symbol, so results can be fed back. -/
theorem map_symbolResult_setWidth (c : Config) (m : List Index) :
    (m.map (symbolResult c)).map (fun w => w.setWidth 21) = indicesToText c m := by
  rw [List.map_map, indicesToText]
  refine List.map_congr_left fun x _ => ?_
  exact (BitVec.setWidth_setWidth_of_le _ (by decide)).trans (BitVec.setWidth_eq _)

/-- Settles O50: both calls mix with the same entries, and DecIdx undoes EncIdx (`decIdx_encIdx`). -/
theorem roundTripGivesMessage : Obligations.RoundTripGivesMessage := by
  intro s message inv loaded member
  obtain ⟨m, small, rfl⟩ := exists_indices member
  have loaded : s.klen ≠ 0 := Nat.ne_of_gt loaded
  have entry_small (k : Nat) : (keyEntry s (k % s.klen)).toNat < 106 :=
    inv.keyEntry_lt (Nat.mod_lt _ (Nat.pos_of_ne_zero loaded))
  obtain ⟨t, encrypted, t_inv, same⟩ := hostCipherAgain_mixes mixes_encs inv loaded small
  have mixed_small : ∀ x ∈ m.mapIdx fun k x => encIdx x (keyEntry s (k % s.klen)), x.toNat < 106 := by
    intro y hy
    obtain ⟨k, hk, rfl⟩ := List.mem_mapIdx.mp hy
    exact encIdx_lt (small _ (List.getElem_mem hk)) (entry_small k)
  obtain ⟨u, decrypted, -, -⟩ := hostCipherAgain_mixes mixes_decs t_inv (same.klen_eq ▸ loaded) mixed_small
  refine ⟨_, t, u, encrypted, ?_⟩
  have undone : (m.mapIdx fun k x => decIdx (encIdx x (keyEntry s (k % s.klen))) (keyEntry s (k % s.klen))) = m :=
    List.ext_getElem List.length_mapIdx fun k _ hk => by
      rw [List.getElem_mapIdx]
      exact decIdx_encIdx (small _ (List.getElem_mem hk)) (entry_small k)
  rw [same.cfg_eq, same.klen_eq, same.entries_eq, List.mapIdx_mapIdx] at decrypted
  rw [map_symbolResult_setWidth, decrypted, indicesToText, List.map_map]
  exact congrArg (fun l => (Except.ok (List.map (symbolResult s.cfg) l), u)) undone

end Sys2Proof.Machine
end

section
/-! PROOF. The result of each control command (42_control.md R110, R111). -/

namespace Sys2Proof.Machine

variable {s t : State} {i : Instr}

/-- R58, R118: the check of a command without operand is that its operand word is 0. -/
theorem exec_eq_ite_data_eq_zero (mask : i.reservedMask = 0xFFFFFFFF#32)
    (h : i.data &&& i.reservedMask = 0#32 → Effect s i t) :
    exec i s = .next (if i.data = 0#32 then t else raise .reservedBits i.data s) := by
  have result := exec_eq_ite_reserved h
  rwa [mask, and_fullMask] at result

/-- Settles O11: NOP reserves every bit of its operand word and has no other check. -/
theorem nopResult : Obligations.NopResult :=
  fun data _ => ⟨decode_encode (.nop data), exec_eq_ite_data_eq_zero rfl .nop⟩

/-- Settles O12: STAT.CLR reserves every bit of its operand word, and clears STATUS only behind that check. -/
theorem statClrResult : Obligations.StatClrResult :=
  fun data _ => ⟨decode_encode (.statClr data), exec_eq_ite_data_eq_zero rfl .statClr⟩

end Sys2Proof.Machine
end

section
/-! PROOF. The priority of errors (60_exceptions.md R117-R123): the state after an issued word reports the first error
in the order of R122, a failing command writes nothing else, and a command to which no error applies succeeds. -/

namespace Sys2Proof.Machine

variable {s t : State} {i : Instr} {cmd : Cmd}

/-- Settles O6. -/
theorem blockWaitsForHost : Obligations.BlockWaitsForHost := fun _ => step_wait

/-! ### The opcode lists of R122 as classes of commands -/

theorem opcode_mem_legalOpcodes (i : Instr) : i.opcode ∈ legalOpcodes := by
  cases i <;> simp [Instr.opcode, legalOpcodes]

/-- R57, R59: an opcode that names no command, whatever the operand word, is not listed. -/
theorem not_mem_legalOpcodes {op : BitVec 8} {data : Word} (unnamed : commandOf op data = none) :
    op ∉ legalOpcodes := by
  have named : ∀ op ∈ legalOpcodes, commandOf op 0#32 ≠ none := by decide
  exact fun listed => named op listed (commandOf_eq_none_iff.mpr (commandOf_eq_none_iff.mp unnamed))

theorem opcode_mem_mixing_iff : i.opcode ∈ [0x14#8, 0x15#8, 0x16#8, 0x17#8] ↔ isMixing i = true := by
  cases i <;> simp [Instr.opcode, isMixing]

/-- R58, R61: the commands with an index operand are those that reserve the bits above its 7. -/
theorem opcode_mem_index_iff :
    i.opcode ∈ [0x11#8, 0x14#8, 0x15#8, 0x19#8] ↔ i.reservedMask = 0xFFFFFF80#32 := by
  cases i <;> simp [Instr.opcode, Instr.reservedMask]

/-- R58, R61: the commands with a symbol operand are those that reserve the bits above its 21. -/
theorem opcode_mem_symbol_iff :
    i.opcode ∈ [0x12#8, 0x16#8, 0x17#8, 0x18#8] ↔ i.reservedMask = 0xFFE00000#32 := by
  cases i <;> simp [Instr.opcode, Instr.reservedMask]

/-- R122 for a command, in the terms of `Effect`. -/
theorem firstError_encode (i : Instr) (s : State) :
    firstError (encode i) s =
      if i.data &&& i.reservedMask ≠ 0#32 then 6#4
      else if isMixing i = true ∧ s.klen = 0 then 1#4
      else if i.reservedMask = 0xFFFFFF80#32 ∧ ¬ (idxField i.data).toNat < 106 then 4#4
      else if i.reservedMask = 0xFFE00000#32 ∧ indexOf s.cfg (symField i.data) = none then 2#4
      else if i.opcode ∈ [0x11#8, 0x12#8] ∧ s.klen = s.cfg.kmax then 5#4
      else if i.opcode = 0x04#8 ∧ finishedCrc s ≠ i.data then 3#4
      else 0#4 := by
  simp only [firstError, opOf_encode, dataOf_encode, opcode_mem_legalOpcodes, not_true, if_false, ← reservedMask_eq,
    opcode_mem_mixing_iff, opcode_mem_index_iff, opcode_mem_symbol_iff, indexOf_none_iff, not_lt]
  rfl

/-! ### What a command reports and writes -/

/-- R122: each case of `Effect` is reached past the checks before it, so what it reports is the first error. -/
theorem Effect.firstError_eq (h : Effect s i t) : firstError (encode i) s = t.err := by
  rw [firstError_encode]
  cases h with
  | reserved set => exact if_pos set
  | noKey mixing legal empty => simp [mixing, legal, empty, ErrorKind.code]
  | badIndex mask legal big loaded =>
    simp +contextual [mask ▸ legal, mask, not_lt.mpr big, loaded, ErrorKind.code]
  | unsupported mask legal missing loaded =>
    simp +contextual [mask ▸ legal, mask, missing, loaded, ErrorKind.code]
  | keyFullIndex legal checked full =>
    have operand := checkIdx_lt checked
    simp [Instr.data, Instr.reservedMask, Instr.opcode, isMixing, legal, operand, full, ErrorKind.code]
  | keyFullSymbol legal operand buffer | keyPush legal operand buffer | keyPushs legal operand buffer =>
    simp [Instr.data, Instr.reservedMask, Instr.opcode, isMixing, legal, operand, buffer, ErrorKind.code]
  | crcMatch compared | crcMismatch compared =>
    simp [Instr.data, Instr.reservedMask, Instr.opcode, isMixing, compared, ErrorKind.code]
  | crcW => simp [Instr.data, Instr.reservedMask, Instr.opcode, isMixing]
  | nop legal | statClr legal | crcInit legal | crcB legal | keyClr legal | keyRst legal =>
    simp [Instr.data, Instr.reservedMask, Instr.opcode, isMixing, legal]
  | enc legal loaded operand | dec legal loaded operand | encs legal loaded operand | decs legal loaded operand =>
    simp [Instr.data, Instr.reservedMask, Instr.opcode, isMixing, legal, loaded, operand, cipherStep]
  | symIdx legal operand | idxSym legal operand =>
    simp [Instr.data, Instr.reservedMask, Instr.opcode, isMixing, legal, operand]

/-- R119, R120: what a failing command leaves, by the code of its error. -/
def State.failed (s : State) (cmd : Cmd) (code : BitVec 4) : State :=
  { s with
    err := code
    sticky := true
    einfo := errorPayload cmd code
    matchFlag := if code = 3#4 then false else s.matchFlag }

theorem errorPayload_encode {code : BitVec 4} (noPassphrase : code ≠ 1#4) (illegal : code ≠ 7#4) :
    errorPayload (encode i) code = i.data := by
  rw [errorPayload, if_neg noPassphrase, if_neg illegal, dataOf_encode]

/-- R119, R120, R123: of what a command can do, the failures write STATUS and EINFO only. -/
theorem Effect.eq_failed (h : Effect s i t) (fails : t.err ≠ 0#4) : t = s.failed (encode i) t.err := by
  cases h with
  | noKey => rfl
  | reserved | badIndex | unsupported | keyFullIndex | keyFullSymbol | crcMismatch =>
    rw [State.failed, raise_err, errorPayload_encode (by decide) (by decide)]
    rfl
  | _ => exact absurd rfl fails

theorem raise_err_ne_zero (e : ErrorKind) (info : Word) (s : State) : (raise e info s).err ≠ 0#4 := e.code_ne_zero

/-- R121: a command that succeeds writes EINFO only if it is STAT.CLR. -/
theorem Effect.einfo_eq (h : Effect s i t) (ok : t.err = 0#4) (other : ∀ data, i ≠ .statClr data) :
    t.einfo = s.einfo := by
  cases h with
  | statClr => exact absurd rfl (other _)
  | reserved | noKey | badIndex | unsupported | keyFullIndex | keyFullSymbol | crcMismatch =>
    exact absurd ok (raise_err_ne_zero _ _ _)
  | _ => rfl

/-! ### What an issued word reports and writes -/

theorem firstError_illegal {op : BitVec 8} (h : decode cmd = .illegal op) (s : State) : firstError cmd s = 7#4 := by
  obtain ⟨rfl, unnamed⟩ := decode_illegal h
  exact if_pos (not_mem_legalOpcodes unnamed)

/-- R122: an issued word answers a next state, whose ERR is the first error that applies. -/
theorem issue_firstError (cmd : Cmd) (s : State) : ∃ t, issue cmd s = .next t ∧ t.err = firstError cmd s := by
  cases decoded : decode cmd with
  | command i =>
    have run := exec_eq_next i s
    rw [issue_command decoded, ← encode_of_decode decoded]
    exact ⟨_, run, (exec_effect run).firstError_eq.symm⟩
  | illegal op => exact ⟨_, issue_illegal decoded, (firstError_illegal decoded s).symm⟩

/-- R119, R120, R112: after an error the state is the one before with the error's writes. -/
theorem issue_eq_failed (h : issue cmd s = .next t) (fails : t.err ≠ 0#4) : t = s.failed cmd t.err := by
  obtain ⟨i, decoded, run⟩ | ⟨op, decoded, rfl⟩ := issue_cases h
  · rw [← encode_of_decode decoded]
    exact (exec_effect run).eq_failed fails
  · obtain ⟨rfl, -⟩ := decode_illegal decoded
    rfl

/-- Settles O27: ERR is the first error's code (`issue_firstError`), and with an error the rest is `State.failed`. -/
theorem firstErrorIsAllThatFails : Obligations.FirstErrorIsAllThatFails := by
  intro cmd s fails
  obtain ⟨t, issued, err⟩ := issue_firstError cmd s
  rw [← err] at fails ⊢
  rw [issued]
  exact congrArg _ (issue_eq_failed issued fails)

/-- Settles O28: with no first error ERR is 0, and a command that leaves ERR 0 sets neither STICKY nor EINFO. -/
theorem successKeepsStickyAndPayload : Obligations.SuccessKeepsStickyAndPayload := by
  intro cmd s none_applies
  obtain ⟨t, issued, err⟩ := issue_firstError cmd s
  have ok : t.err = 0#4 := err.trans none_applies
  refine ⟨t, issued, ok, fun other => ?_⟩
  obtain ⟨i, decoded, run⟩ | ⟨op, -, rfl⟩ := issue_cases issued
  · have other : ∀ data, i ≠ .statClr data := by
      rintro data rfl
      exact other data decoded
    have effect := exec_effect run
    exact ⟨by simp [effect.sticky_eq other, ok], effect.einfo_eq ok other⟩
  · exact absurd ok (raise_err_ne_zero _ _ _)

end Sys2Proof.Machine
end

section
/-! PROOF. Reset (70_reset_and_hazards.md R140): what the reset event leaves, and what the read port shows after it. -/

namespace Sys2Proof.Machine

/-- Settles O9: the step takes the reset, whose fields are those of `resetBlock`. -/
theorem resetEventSetsRegisters : Obligations.ResetEventSetsRegisters :=
  fun _ _ host => ⟨_, step_reset host, rfl, rfl, rfl, rfl, rfl, rfl, rfl, rfl, rfl, rfl, rfl⟩

/-- Settles O10: the word at each address is computed from the constants of `State.resetWith`; of the parameters only KMAX
is read. -/
theorem resetReadsAsStated : Obligations.ResetReadsAsStated :=
  ⟨rfl, rfl, rfl, rfl, rfl, rfl, rfl, rfl⟩

end Sys2Proof.Machine
end

section
/-! PROOF. A chunk's CRC through the host protocol (70_reset_and_hazards.md R153, 20_memory.md R49): the sequences of
commands that the host issues, up to the first error. -/

namespace Sys2Proof.Machine

variable {s t u : State} {i : Instr}

/-! ### Commands of the host, one after the other (R150, R151) -/

/-- R151: the host reads ERR and EINFO and reports them. -/
theorem hostIssue_error (h : exec i s = .next t) (failed : t.err ≠ 0#4) :
    hostIssue i s = (.error (.reported t.err t.einfo), t) := by
  rw [hostIssue, issue_command (decode_encode i), h]
  simp only [readPort_status, statusWord_err, failed, if_false, readPort_einfo]

/-- R151: the error a command raises is the one the host reports. -/
theorem hostIssue_raise {e : ErrorKind} {info : Word} (h : exec i s = .next (raise e info u)) :
    hostIssue i s = (.error (.reported e.code info), raise e info u) :=
  hostIssue_error h (raise_err_ne_zero e info u)

theorem hostIssueAll_cons_ok {rest : List Instr} (first : hostIssue i s = (.ok (), t)) :
    hostIssueAll (i :: rest) s = hostIssueAll rest t := by
  rw [hostIssueAll, first]

theorem hostIssueAll_cons_error {e : HostStop} (rest : List Instr) (first : hostIssue i s = (.error e, t)) :
    hostIssueAll (i :: rest) s = (.error e, t) := by
  rw [hostIssueAll, first]

theorem hostIssueAll_append {front : List Instr} (back : List Instr) (h : hostIssueAll front s = (.ok (), t)) :
    hostIssueAll (front ++ back) s = hostIssueAll back t := by
  induction front generalizing s with
  | nil =>
    cases h
    rfl
  | cons i rest ih =>
    rw [hostIssueAll] at h
    split at h
    next first => rw [List.cons_append, hostIssueAll_cons_ok first, ih h]
    next => cases h

/-- Commands that always succeed run to their end, as without the host's reads of STATUS. -/
theorem hostIssueAll_of_succeeding {commands : List Instr} (run : execAll commands s = .next t)
    (succeed : ∀ i ∈ commands, ∀ u, (afterCommand i u).err = 0#4) : hostIssueAll commands s = (.ok (), t) := by
  induction commands generalizing s with
  | nil =>
    cases run
    rfl
  | cons i rest ih =>
    obtain ⟨first, others⟩ := List.forall_mem_cons.mp succeed
    rw [execAll_cons] at run
    rw [hostIssueAll_cons_ok (hostIssue_ok (exec_eq_next i s) (first s)), ih run others]

/-! ### Feeding the chunk (R66) -/

theorem afterCommand_of_exec (h : exec i s = .next t) : afterCommand i s = t := by
  rw [afterCommand, h]

theorem crcChunk_succeeds (t0 t1 t2 t3 : Byte) (bytes : List Byte) :
    ∀ i ∈ crcChunk t0 t1 t2 t3 bytes, ∀ u, (afterCommand i u).err = 0#4 := by
  rw [crcChunk, List.forall_mem_cons]
  constructor
  · intro u
    rw [afterCommand_of_exec (exec_crcInit u)]
  · intro i member u
    rw [afterCommand_of_exec (exec_of_feeding (crcBytes_feeding _ i member) u)]

/-- R153: after the chunk is fed, the host reads its CRC at address 3. -/
theorem hostIssueAll_crcChunk (t0 t1 t2 t3 : Byte) (bytes : List Byte) (s : State) :
    ∃ t, hostIssueAll (crcChunk t0 t1 t2 t3 bytes) s = (.ok (), t) ∧
      finishedCrc t = chunkCrc t0 t1 t2 t3 bytes := by
  obtain ⟨t, run, crc⟩ := chunkExpansionGivesChunkCrc.2 t0 t1 t2 t3 bytes s
  exact ⟨t, hostIssueAll_of_succeeding run (crcChunk_succeeds _ _ _ _ _), crc⟩

/-! ### The check (R49, R78) -/

theorem append_wordBytes (w : Word) :
    w.extractLsb' 24 8 ++ w.extractLsb' 16 8 ++ w.extractLsb' 8 8 ++ w.extractLsb' 0 8 = w := by
  rw [BitVec.extractLsb'_append_extractLsb'_eq_extractLsb' (by decide),
    BitVec.extractLsb'_append_extractLsb'_eq_extractLsb' (by decide),
    BitVec.extractLsb'_append_extractLsb'_eq_extractLsb' (by decide), BitVec.extractLsb'_eq_self]

/-- R49: four bytes are those of a word when the word assembled from them is that word. -/
theorem eq_wordBytes_iff {b0 b1 b2 b3 : Byte} {w : Word} :
    [b0, b1, b2, b3] = wordBytes w ↔ w = b0 ++ b1 ++ b2 ++ b3 := by
  constructor
  · intro h
    cases h
    exact (append_wordBytes w).symm
  · rintro rfl
    exact (wordBytes_append ..).symm

/-- R22: bit 4 of STATUS is MATCH. -/
theorem statusWord_match (s : State) : (statusWord s).getLsbD 4 = s.matchFlag := by
  rw [statusWord, BitVec.getLsbD_append, BitVec.getLsbD_append]
  simp

theorem hostIssueAll_crcMatch {w : Word} (equal : finishedCrc s = w) :
    hostIssueAll [.crcChk w] s = (.ok (), done { s with matchFlag := true }) :=
  hostIssueAll_cons_ok (hostIssue_ok (Effect.crcMatch equal).exec_eq rfl)

theorem hostIssueAll_crcMismatch {w : Word} (differ : finishedCrc s ≠ w) :
    hostIssueAll [.crcChk w] s =
      (.error (.reported 3#4 w), raise .checksumMismatch w { s with matchFlag := false }) :=
  hostIssueAll_cons_error [] (hostIssue_raise (Effect.crcMismatch differ).exec_eq)

/-- Settles O54: both calls feed the chunk (`hostIssueAll_crcChunk`); the check compares the CRC with the word of the
stored bytes (`eq_wordBytes_iff`). -/
theorem builtChunkPassesCheck : Obligations.BuiltChunkPassesCheck := by
  intro t0 t1 t2 t3 bytes c0 c1 c2 c3 s
  obtain ⟨t, fed, crc⟩ := hostIssueAll_crcChunk t0 t1 t2 t3 bytes s
  constructor
  · simp only [hostBuildCrc, fed, readPort_crc, crc]
  · rw [hostCheckCrc, hostIssueAll_append _ fed, ← crc]
    by_cases equal : finishedCrc t = c0 ++ c1 ++ c2 ++ c3
    · rw [hostIssueAll_crcMatch equal, if_pos (eq_wordBytes_iff.mpr equal)]
      simp only [readPort_status, statusWord_match, done_matchFlag]
    · rw [hostIssueAll_crcMismatch equal, if_neg (mt eq_wordBytes_iff.mp equal)]

end Sys2Proof.Machine
end

section
/-! PROOF. One call of the document's encrypt or decrypt through the host protocol (70_reset_and_hazards.md R150-R152):
both texts split at their first character outside the alphabet, where the host's commands fail. -/

namespace Sys2Proof.Machine

variable {s t u : State} {command : Word → Instr} {mix : Index → Index → Index}

/-! ### Converting a text (R100) -/

@[simp] theorem length_indicesToText (c : Config) (m : List Index) : (indicesToText c m).length = m.length :=
  List.length_map _

/-- R29: the symbol results of indices are their text, one character in each word. -/
theorem map_symbolResult (c : Config) (m : List Index) :
    m.map (symbolResult c) = (indicesToText c m).map fun x => x.setWidth 32 := by
  rw [indicesToText, List.map_map]
  rfl

/-- Everything the conversion of a text can do: it gives the text's indices, or it reports the first character outside
the alphabet. -/
theorem textToIndices_cases (c : Config) (text : List Sym) :
    (∃ m, textToIndices c text = .ok m ∧ (∀ x ∈ m, x.toNat < 106) ∧ text = indicesToText c m) ∨
      ∃ front bad rest, textToIndices c text = .error (.unsupportedCharacter bad) ∧ (∀ x ∈ front, x.toNat < 106) ∧
        indexOf c bad = none ∧ text = indicesToText c front ++ bad :: rest := by
  induction text with
  | nil => exact .inl ⟨[], rfl, nofun, rfl⟩
  | cons x rest ih =>
    cases found : indexOf c x with
    | none =>
      refine .inr ⟨[], x, rest, ?_, nofun, found, rfl⟩
      simp only [textToIndices, found]
    | some j =>
      have symbol := symbolAt_of_indexOf found
      have small := indexOf_lt found
      obtain ⟨m, converted, others, rfl⟩ | ⟨front, bad, tail, stopped, others, missing, rfl⟩ := ih
      · refine .inl ⟨j :: m, ?_, List.forall_mem_cons.mpr ⟨small, others⟩, ?_⟩
        · simp only [textToIndices, found, converted]
        · rw [indicesToText, indicesToText, List.map_cons, symbol]
      · refine .inr ⟨j :: front, bad, tail, ?_, List.forall_mem_cons.mpr ⟨small, others⟩, missing, ?_⟩
        · simp only [textToIndices, found, stopped]
        · rw [indicesToText, indicesToText, List.map_cons, symbol, List.cons_append]

/-! ### Commands with a symbol operand (R61, R85) -/

/-- R58, R61: `command` takes a symbol as its operand. -/
structure TakesSymbol (command : Word → Instr) : Prop where
  data_eq : ∀ w, (command w).data = w
  mask_eq : ∀ w, (command w).reservedMask = 0xFFE00000#32

theorem takesSymbol_keyPushs : TakesSymbol .keyPushs := ⟨fun _ => rfl, fun _ => rfl⟩

theorem takesSymbol_encs : TakesSymbol .encs := ⟨fun _ => rfl, fun _ => rfl⟩

theorem takesSymbol_decs : TakesSymbol .decs := ⟨fun _ => rfl, fun _ => rfl⟩

theorem TakesSymbol.legal (h : TakesSymbol command) (c : Sym) :
    (command (c.setWidth 32)).data &&& (command (c.setWidth 32)).reservedMask = 0#32 := by
  rw [h.data_eq, h.mask_eq]
  exact setWidth_and_allOnes_shiftLeft (n := 21) (by decide)

/-- R85: a character outside the alphabet is reported as the document reports it. -/
theorem TakesSymbol.hostIssue_unsupported (h : TakesSymbol command) {c : Sym} (missing : indexOf s.cfg c = none)
    (loaded : isMixing (command (c.setWidth 32)) = true → s.klen ≠ 0) :
    ∃ t, hostIssue (command (c.setWidth 32)) s = (.error (DocError.unsupportedCharacter c).report, t) := by
  have raised := (Effect.unsupported (h.mask_eq _) (h.legal c) (by rwa [h.data_eq, symField_setWidth]) loaded).exec_eq
  rw [h.data_eq] at raised
  exact ⟨_, hostIssue_raise raised⟩

/-- R122: without a passphrase a mixing command reports EmptyPassphrase, whatever its operand. -/
theorem TakesSymbol.hostIssue_emptyPassphrase (h : TakesSymbol command) (c : Sym)
    (mixing : isMixing (command (c.setWidth 32)) = true) (empty : s.klen = 0) :
    ∃ t, hostIssue (command (c.setWidth 32)) s = (.error DocError.emptyPassphrase.report, t) :=
  ⟨_, hostIssue_raise (Effect.noKey mixing (h.legal c) empty).exec_eq⟩

/-! ### Loading the passphrase (R68) -/

/-- R88: with room, the symbol of an index is pushed as that index (`exec_keyPush_room`). -/
theorem exec_keyPushs_room {x : Index} (legal : s.cfg.legal = true) (small : x.toNat < 106)
    (room : s.klen ≠ s.cfg.kmax) :
    exec (.keyPushs (symbolResult s.cfg x)) s =
      .next (done { s with key := s.key.set s.klen x, klen := s.klen + 1 }) := by
  refine (Effect.keyPushs (takesSymbol_keyPushs.legal _) ?_ room).exec_eq
  rw [Instr.data, symField_setWidth, indexOf_symbolAt legal small]

/-- R88, R87: pushing the symbols of indices that fit does what pushing the indices does, and no push fails. -/
theorem hostIssueAll_keyPushs {p : List Index} (legal : s.cfg.legal = true) (fits : s.klen + p.length ≤ s.cfg.kmax)
    (small : ∀ x ∈ p, x.toNat < 106) (run : execAll (p.map fun x => .keyPush (x.setWidth 32)) s = .next t) :
    hostIssueAll ((indicesToText s.cfg p).map fun c => .keyPushs (c.setWidth 32)) s = (.ok (), t) := by
  induction p generalizing s with
  | nil =>
    cases run
    rfl
  | cons x rest ih =>
    obtain ⟨small, others⟩ := List.forall_mem_cons.mp small
    rw [List.length_cons] at fits
    have room : s.klen ≠ s.cfg.kmax := by omega
    rw [List.map_cons, execAll_cons, afterCommand_of_exec (exec_keyPush_room small room)] at run
    have pushed := hostIssueAll_cons_ok (rest := (indicesToText s.cfg rest).map fun c => .keyPushs (c.setWidth 32))
      (hostIssue_ok (exec_keyPushs_room legal small room) rfl)
    refine pushed.trans (ih ?_ ?_ others run)
    · exact legal
    · simp
      omega

theorem hostIssue_keyClr (s : State) : hostIssue (.keyClr 0#32) s = (.ok (), done (clearKey s)) :=
  hostIssue_ok (exec_keyClr s) rfl

/-- R68: the symbols of a passphrase that fits load its indices. -/
theorem hostIssueAll_keySet {p : List Index} (inv : s.Inv) (fits : p.length ≤ s.cfg.kmax)
    (small : ∀ x ∈ p, x.toNat < 106) :
    ∃ t, hostIssueAll (keySet (indicesToText s.cfg p)) s = (.ok (), t) ∧ t.Inv ∧ t.cfg = s.cfg ∧ t.klen = p.length ∧
      t.kpos = 0 ∧ ∀ (j : Nat) (h : j < p.length), keyEntry t j = p[j] := by
  obtain ⟨t, run, t_inv, klen, kpos, -, entries⟩ := keySetLoadsPassphrase s p inv fits small
  obtain ⟨-, -, cfg⟩ := execAll_keeps_environment run
  refine ⟨t, ?_, t_inv, cfg, klen, kpos, entries⟩
  rw [keySetI, execAll_cons, afterCommand_of_exec (exec_keyClr s)] at run
  rw [keySet, hostIssueAll_cons_ok (hostIssue_keyClr s)]
  exact hostIssueAll_keyPushs (s := done (clearKey s)) inv.cfg_legal (by simpa using fits) small run

/-- R151: a passphrase that fits is reported at its first character outside the alphabet. -/
theorem hostIssueAll_keySet_unsupported {front : List Index} {bad : Sym} {rest : List Sym} (inv : s.Inv)
    (fits : front.length ≤ s.cfg.kmax) (small : ∀ x ∈ front, x.toNat < 106) (missing : indexOf s.cfg bad = none) :
    ∃ t, hostIssueAll (keySet (indicesToText s.cfg front ++ bad :: rest)) s =
      (.error (DocError.unsupportedCharacter bad).report, t) := by
  obtain ⟨t, load, -, cfg, -⟩ := hostIssueAll_keySet inv fits small
  obtain ⟨u, stopped⟩ := takesSymbol_keyPushs.hostIssue_unsupported (s := t) (cfg ▸ missing) nofun
  refine ⟨u, ?_⟩
  rw [keySet, List.map_append, ← List.cons_append, ← keySet, hostIssueAll_append _ load, List.map_cons,
    hostIssueAll_cons_error _ stopped]

/-! ### The message (R150, R151) -/

theorem hostMessage_cons_error {c : Sym} {e : HostStop} (rest : List Sym)
    (first : hostIssue (command (c.setWidth 32)) s = (.error e, t)) :
    hostMessage command (c :: rest) s = (.error e, t) := by
  simp only [hostMessage, first]

/-- R151: an error discards the values read before it. -/
theorem hostMessage_append_error {front back : List Sym} {out : List Word} {e : HostStop}
    (read : hostMessage command front s = (.ok out, t)) (stopped : hostMessage command back t = (.error e, u)) :
    hostMessage command (front ++ back) s = (.error e, u) := by
  induction front generalizing s out with
  | nil =>
    cases read
    exact stopped
  | cons c rest ih =>
    rw [hostMessage] at read
    split at read
    next => cases read
    next first =>
      split at read
      next others =>
        cases read
        simp only [List.cons_append, hostMessage, first, ih others]
      next => cases read

/-- R151: with a key loaded, a message is reported at its first character outside the alphabet. -/
theorem hostMessage_unsupported {front : List Index} {bad : Sym} {rest : List Sym}
    (takes : TakesSymbol command) (mixes : Mixes command mix symbolResult) (inv : s.Inv) (loaded : s.klen ≠ 0)
    (small : ∀ x ∈ front, x.toNat < 106) (missing : indexOf s.cfg bad = none) :
    ∃ t, hostMessage command (indicesToText s.cfg front ++ bad :: rest) s =
      (.error (DocError.unsupportedCharacter bad).report, t) := by
  obtain ⟨t, read, -, same⟩ := hostMessage_mixes mixes inv loaded small
  obtain ⟨u, stopped⟩ :=
    takes.hostIssue_unsupported (s := t) (same.cfg_eq ▸ missing) fun _ => same.klen_eq ▸ loaded
  exact ⟨u, hostMessage_append_error read (hostMessage_cons_error rest stopped)⟩

/-! ### One call (R150, R152) -/

/-- What the host answers where the document's function answers this. -/
def hostAnswer : Except DocError (List Sym) → Except HostStop (List Word)
  | .ok out => .ok (out.map fun c => c.setWidth 32)
  | .error e => .error e.report

theorem hostCipher_loaded {message passphrase : List Sym} (some_text : ¬ (message = [] ∧ passphrase = []))
    (load : hostIssueAll (keySet passphrase) s = (.ok (), t)) :
    hostCipher command message passphrase s = hostMessage command message t := by
  rw [hostCipher, if_neg some_text, load]

theorem hostCipher_not_loaded {message passphrase : List Sym} {e : HostStop} (nonempty : passphrase ≠ [])
    (stopped : hostIssueAll (keySet passphrase) s = (.error e, t)) :
    hostCipher command message passphrase s = (.error e, t) := by
  rw [hostCipher, if_neg fun empty => nonempty empty.2, stopped]

/-- R152: without a passphrase the first command of the message reports it, or the host does where there is none. -/
theorem hostCipher_emptyPassphrase (takes : TakesSymbol command) (mixing : ∀ w, isMixing (command w) = true)
    (message : List Sym) (s : State) :
    ∃ t, hostCipher command message [] s = (.error DocError.emptyPassphrase.report, t) := by
  cases message with
  | nil => exact ⟨s, rfl⟩
  | cons c rest =>
    have load : hostIssueAll (keySet []) s = (.ok (), done (clearKey s)) := hostIssueAll_cons_ok (hostIssue_keyClr s)
    obtain ⟨t, stopped⟩ := takes.hostIssue_emptyPassphrase (s := done (clearKey s)) c (mixing _) rfl
    exact ⟨t, (hostCipher_loaded (by simp) load).trans (hostMessage_cons_error rest stopped)⟩

/-- R68, R150: with a passphrase over the alphabet that fits, the message is handled with its indices as the key. -/
theorem hostCipher_of_passphrase {p : List Index} (command : Word → Instr) (inv : s.Inv) (fits : p.length ≤ s.cfg.kmax)
    (nonempty : p ≠ []) (small : ∀ x ∈ p, x.toNat < 106) :
    ∃ t, (∀ message, hostCipher command message (indicesToText s.cfg p) s = hostMessage command message t) ∧
      t.Inv ∧ t.cfg = s.cfg ∧ t.klen ≠ 0 ∧
      ∀ m, t.mixed mix m = m.mapIdx fun k x => mix x (p.getD (k % p.length) 0#7) := by
  obtain ⟨t, load, t_inv, cfg, klen, kpos, entries⟩ := hostIssueAll_keySet inv fits small
  have some_text (message : List Sym) : ¬ (message = [] ∧ indicesToText s.cfg p = []) :=
    fun empty => nonempty (List.map_eq_nil_iff.mp empty.2)
  exact ⟨t, fun message => hostCipher_loaded (some_text message) load, t_inv, cfg,
    klen ▸ (List.length_pos_of_ne_nil nonempty).ne', mixed_of_loaded kpos klen nonempty entries⟩

/-- R150-R152: a call answers as the document's function, in each of its outcomes. -/
theorem hostCipher_eq_hostAnswer {f : List Index → List Index → List Index} {message passphrase : List Sym}
    (takes : TakesSymbol command) (mixing : ∀ w, isMixing (command w) = true)
    (mixes : Mixes command mix symbolResult)
    (f_eq : ∀ {m p : List Index}, (∀ x ∈ m, x.toNat < 106) → (∀ x ∈ p, x.toNat < 106) →
      f m p = m.mapIdx fun k x => mix x (p.getD (k % p.length) 0#7))
    (inv : s.Inv) (fits : passphrase.length ≤ s.cfg.kmax) :
    (hostCipher command message passphrase s).1 = hostAnswer (cipherText f s.cfg message passphrase) := by
  by_cases nonempty : passphrase = []
  · subst nonempty
    obtain ⟨t, answer⟩ := hostCipher_emptyPassphrase takes mixing message s
    rw [answer, cipherText, if_pos rfl, hostAnswer]
  rw [cipherText, if_neg nonempty]
  obtain ⟨p, converted, p_small, rfl⟩ | ⟨front, bad, rest, stopped, small, missing, rfl⟩ :=
    textToIndices_cases s.cfg passphrase
  · rw [length_indicesToText] at fits
    obtain ⟨t, call, t_inv, cfg, loaded, mixed⟩ := hostCipher_of_passphrase (mix := mix) command inv fits
      (mt List.map_eq_nil_iff.mpr nonempty) p_small
    simp only [call, converted]
    rw [← cfg]
    obtain ⟨m, converted, m_small, rfl⟩ | ⟨front, bad, rest, stopped, small, missing, rfl⟩ :=
      textToIndices_cases t.cfg message
    · obtain ⟨u, read, -⟩ := hostMessage_mixes mixes t_inv loaded m_small
      simp only [read, converted, hostAnswer, mixed, f_eq m_small p_small, map_symbolResult]
    · obtain ⟨u, reported⟩ := hostMessage_unsupported (rest := rest) takes mixes t_inv loaded small missing
      simp only [reported, stopped, hostAnswer]
  · have front_fits : front.length ≤ s.cfg.kmax := le_trans (by simp) fits
    obtain ⟨t, reported⟩ := hostIssueAll_keySet_unsupported (rest := rest) inv front_fits small missing
    rw [hostCipher_not_loaded nonempty reported, stopped, hostAnswer]

/-- Settles O53: `hostCipher_eq_hostAnswer` for ENCS with the document's encrypt and DECS with its decrypt. -/
theorem protocolGivesDocumentFunction : Obligations.ProtocolGivesDocumentFunction :=
  fun _ _ _ inv fits =>
    ⟨hostCipher_eq_hostAnswer takesSymbol_encs (fun _ => rfl) mixes_encs encryptIndices_eq inv fits,
      hostCipher_eq_hostAnswer takesSymbol_decs (fun _ => rfl) mixes_decs decryptIndices_eq inv fits⟩

end Sys2Proof.Machine
end

section
/-! PROOF. Every transaction of the host is a step (42_control.md R112, 70_reset_and_hazards.md R141): an issued word,
illegal or not, answers a next state, and so do waiting, a read and a reset. -/

namespace Sys2Proof.Machine

/-- R112, R141: a word that decodes runs its command, and any other word raises; neither stops the block. -/
theorem issue_completes (cmd : Cmd) (s : State) : Completes (issue cmd s) := by
  cases decoded : decode cmd with
  | command i => exact ⟨_, (issue_command decoded).trans (exec_eq_next i s)⟩
  | illegal op => exact ⟨_, issue_illegal decoded⟩

/-- Settles O33, by the transaction the step takes; only an issued word has anything to show (`issue_completes`). -/
theorem everyStepCompletes : Obligations.EveryStepCompletes := by
  intro s
  cases host : s.host with
  | nil => exact ⟨_, step_wait host⟩
  | cons transaction rest =>
    cases transaction with
    | issue cmd => exact step_issue host ▸ issue_completes cmd _
    | read a => exact ⟨_, step_read host⟩
    | reset => exact ⟨_, step_reset host⟩

end Sys2Proof.Machine
end
